-- ==== Sys2Proof/Word.lean ====
section
/-! DEFINITION. The word types of the engine: every value is a natural number of a stated width
(00_scope.md rule R8), so a value the spec shifts, masks or wraps is a bit vector of that width. -/

namespace Sys2Proof

/-- `u8` of rule R8. -/
abbrev Byte := BitVec 8

/-- A 16-bit immediate, `imm16` of rule R81 (30_encoding.md). -/
abbrev Half := BitVec 16

/-- `u32` of rule R8: a register, a hash value, a seed, a command word. -/
abbrev Word := BitVec 32

end Sys2Proof
end

