-- ==== Sys2Proof/Syntax.lean ====
section
/-! DEFINITION. The commands of the engine as syntax: the seventeen rows of 30_encoding.md rule R87
(spec/opcode_table.json), their four formats (R81) and the ways a word can fail to be a command (R86). -/

namespace Sys2Proof

/-- The four word formats of rule R81. -/
inductive Format where
  /-- No operand. -/
  | n
  /-- One byte operand. -/
  | b
  /-- One halfword operand. -/
  | h
  /-- Salt index and byte. -/
  | s
  deriving DecidableEq, Repr

/-- The seventeen opcodes of rule R87 by mnemonic, without operands. -/
inductive Op where
  | nop | sreset | arglo | arghi | rd | zero
  | setblen | bwr | brd | saltw
  | hinit | hbyte
  | oracle
  | mkrec | kdf
  | sbinit
  | crypt
  deriving DecidableEq, Repr

/-- A command with its fields (rule R87), one constructor per row of spec/opcode_table.json. -/
inductive Instr where
  /-- NOP (R100). -/
  | nop
  /-- SRESET (R101). -/
  | sreset
  /-- ARGLO imm16 (R102). -/
  | arglo (imm16 : Half)
  /-- ARGHI imm16 (R103). -/
  | arghi (imm16 : Half)
  /-- RD sel8 (R104); the selector is legal from 0 to 6. -/
  | rd (sel8 : Byte)
  /-- ZERO mask8 (R105). -/
  | zero (mask8 : Byte)
  /-- SETBLEN (R107). -/
  | setblen
  /-- BWR imm8 (R108). -/
  | bwr (imm8 : Byte)
  /-- BRD (R109). -/
  | brd
  /-- SALTW idx3, imm8 (R110). -/
  | saltw (idx3 : BitVec 3) (imm8 : Byte)
  /-- HINIT (R121). -/
  | hinit
  /-- HBYTE imm8 (R122). -/
  | hbyte (imm8 : Byte)
  /-- ORACLE (R133). -/
  | oracle
  /-- MKREC (R141). -/
  | mkrec
  /-- KDF (R153). -/
  | kdf
  /-- SBINIT (R163). -/
  | sbinit
  /-- CRYPT (R173). -/
  | crypt
  deriving DecidableEq, Repr

/-- The opcode of a command. -/
def Instr.op : Instr → Op
  | .nop => .nop
  | .sreset => .sreset
  | .arglo _ => .arglo
  | .arghi _ => .arghi
  | .rd _ => .rd
  | .zero _ => .zero
  | .setblen => .setblen
  | .bwr _ => .bwr
  | .brd => .brd
  | .saltw _ _ => .saltw
  | .hinit => .hinit
  | .hbyte _ => .hbyte
  | .oracle => .oracle
  | .mkrec => .mkrec
  | .kdf => .kdf
  | .sbinit => .sbinit
  | .crypt => .crypt

/-- Why a word decodes to `Illegal` (R86). The engine does not tell them apart: each is cause 1 (R201). -/
inductive Illegal where
  /-- `op` is not one of the seventeen opcodes. -/
  | unassignedOpcode
  /-- A reserved field of the opcode's format is not zero. -/
  | reservedBits
  /-- RD with `sel8` above 6. -/
  | rdSelector
  /-- Fewer than four bytes are left of a command list stored as bytes (the stored form only, D25). -/
  | truncated
  deriving DecidableEq, Repr

end Sys2Proof
end

