-- ==== Sys2Proof/WellFormed.lean ====
section
/-! DEFINITION. Which terms of `Instr` are commands: every field has its format's width by its type, so
the one check left is the selector of RD (30_encoding.md rules R86, R89, R90 (c)). -/

namespace Sys2Proof

/-- `sel8` of RD selects one of the seven registers 0..6 (10_state.md rule R34). -/
def rdSelectorLegal (sel8 : Byte) : Bool := decide (sel8.toNat ≤ 6)

/-- The well-formed commands: those that have a word (R86). -/
def Instr.wf : Instr → Bool
  | .rd sel8 => rdSelectorLegal sel8
  | .nop | .sreset | .arglo _ | .arghi _ | .zero _ | .setblen | .bwr _ | .brd | .saltw _ _
  | .hinit | .hbyte _ | .oracle | .mkrec | .kdf | .sbinit | .crypt => true

end Sys2Proof
end

