-- ==== Sys2Proof/Decode.lean ====
section
/-! DEFINITION. Decoding (30_encoding.md rules R80, R81, R86, R87): total on all 2^32 words, each word a
command or `Illegal` by name; then the encoder, written from the same formats. -/

namespace Sys2Proof

/-- The opcode byte of each command: the column `op` of rule R87. -/
def Op.code : Op → Byte
  | .nop => 0x00
  | .sreset => 0x01
  | .arglo => 0x02
  | .arghi => 0x03
  | .rd => 0x04
  | .zero => 0x05
  | .setblen => 0x10
  | .bwr => 0x11
  | .brd => 0x12
  | .saltw => 0x13
  | .hinit => 0x20
  | .hbyte => 0x21
  | .oracle => 0x30
  | .mkrec => 0x40
  | .kdf => 0x41
  | .sbinit => 0x50
  | .crypt => 0x60

/-- The column `format` of rule R87. -/
def Op.format : Op → Format
  | .nop | .sreset | .setblen | .brd | .hinit | .oracle | .mkrec | .kdf | .sbinit | .crypt => .n
  | .rd | .zero | .bwr | .hbyte => .b
  | .arglo | .arghi => .h
  | .saltw => .s

/-- The column `match` of rule R87, as the table prints it. -/
def Op.tableMatch : Op → Word
  | .nop => 0x00000000
  | .sreset => 0x01000000
  | .arglo => 0x02000000
  | .arghi => 0x03000000
  | .rd => 0x04000000
  | .zero => 0x05000000
  | .setblen => 0x10000000
  | .bwr => 0x11000000
  | .brd => 0x12000000
  | .saltw => 0x13000000
  | .hinit => 0x20000000
  | .hbyte => 0x21000000
  | .oracle => 0x30000000
  | .mkrec => 0x40000000
  | .kdf => 0x41000000
  | .sbinit => 0x50000000
  | .crypt => 0x60000000

/-- The column `mask` of rule R87, as the table prints it. -/
def Op.tableMask : Op → Word
  | .nop => 0xFFFFFFFF
  | .sreset => 0xFFFFFFFF
  | .arglo => 0xFFFF0000
  | .arghi => 0xFFFF0000
  | .rd => 0xFFFFFF00
  | .zero => 0xFFFFFF00
  | .setblen => 0xFFFFFFFF
  | .bwr => 0xFFFFFF00
  | .brd => 0xFFFFFFFF
  | .saltw => 0xFFFFF800
  | .hinit => 0xFFFFFFFF
  | .hbyte => 0xFFFFFF00
  | .oracle => 0xFFFFFFFF
  | .mkrec => 0xFFFFFFFF
  | .kdf => 0xFFFFFFFF
  | .sbinit => 0xFFFFFFFF
  | .crypt => 0xFFFFFFFF

/-- The rows of rule R87, in the table's order. -/
def Op.all : List Op :=
  [.nop, .sreset, .arglo, .arghi, .rd, .zero, .setblen, .bwr, .brd, .saltw, .hinit, .hbyte,
   .oracle, .mkrec, .kdf, .sbinit, .crypt]

/-- The opcode a byte names, if it is one of the seventeen. -/
def Op.ofCode (b : Byte) : Option Op := Op.all.find? (fun o => o.code == b)

/-- `op`, bits 31:24 (R81). -/
def opField (w : Word) : Byte := w.extractLsb' 24 8

/-- `imm8`, `sel8`, `mask8`: bits 7:0 of formats B and S (R81). -/
def byteField (w : Word) : Byte := w.extractLsb' 0 8

/-- `imm16`: bits 15:0 of format H (R81). -/
def halfField (w : Word) : Half := w.extractLsb' 0 16

/-- `idx3`: bits 10:8 of format S (R81). -/
def idxField (w : Word) : BitVec 3 := w.extractLsb' 8 3

/-- The reserved field of a format is zero: bits 23:0, 23:8, 23:16, 23:11 (R81, R86). -/
def reservedZero : Format → Word → Bool
  | .n, w => w.extractLsb' 0 24 == 0
  | .b, w => w.extractLsb' 8 16 == 0
  | .h, w => w.extractLsb' 16 8 == 0
  | .s, w => w.extractLsb' 11 13 == 0

/-- The command an opcode and the fields of a word make (the last line of R86). -/
def Op.instr : Op → Word → Instr
  | .nop, _ => .nop
  | .sreset, _ => .sreset
  | .arglo, w => .arglo (halfField w)
  | .arghi, w => .arghi (halfField w)
  | .rd, w => .rd (byteField w)
  | .zero, w => .zero (byteField w)
  | .setblen, _ => .setblen
  | .bwr, w => .bwr (byteField w)
  | .brd, _ => .brd
  | .saltw, w => .saltw (idxField w) (byteField w)
  | .hinit, _ => .hinit
  | .hbyte, w => .hbyte (byteField w)
  | .oracle, _ => .oracle
  | .mkrec, _ => .mkrec
  | .kdf, _ => .kdf
  | .sbinit, _ => .sbinit
  | .crypt, _ => .crypt

/-- `decode(w)` of rule R86, its tests in the rule's order. -/
def decode (w : Word) : Except Illegal Instr :=
  match Op.ofCode (opField w) with
  | none => .error .unassignedOpcode
  | some op =>
    if !reservedZero op.format w then .error .reservedBits
    else if !(op.instr w).wf then .error .rdSelector
    else .ok (op.instr w)

/-- A command list stored in bytes holds each word least significant byte first (20_memory.md rule R62,
D25). -/
def wordOfBytes (b0 b1 b2 b3 : Byte) : Word := b3 ++ b2 ++ b1 ++ b0

/-- Decoding from stored bytes: the first command and the bytes after it. -/
def decodeBytes : List Byte → Except Illegal (Instr × List Byte)
  | b0 :: b1 :: b2 :: b3 :: rest =>
    match decode (wordOfBytes b0 b1 b2 b3) with
    | .ok i => .ok (i, rest)
    | .error e => .error e
  | _ => .error .truncated

/-- The word of an opcode in format N (R81). -/
def encodeN (op : Op) : Word := op.code ++ 0#24

/-- The word of an opcode in format B (R81). -/
def encodeB (op : Op) (imm8 : Byte) : Word := op.code ++ 0#16 ++ imm8

/-- The word of an opcode in format H (R81). -/
def encodeH (op : Op) (imm16 : Half) : Word := op.code ++ 0#8 ++ imm16

/-- The word of an opcode in format S (R81). -/
def encodeS (op : Op) (idx3 : BitVec 3) (imm8 : Byte) : Word := op.code ++ 0#13 ++ idx3 ++ imm8

/-- The one word of a well-formed command (R86, last sentence; R87). An ill-formed RD is given the word
format B gives it, which decodes to `Illegal`. -/
def encode : Instr → Word
  | .nop => encodeN .nop
  | .sreset => encodeN .sreset
  | .arglo imm16 => encodeH .arglo imm16
  | .arghi imm16 => encodeH .arghi imm16
  | .rd sel8 => encodeB .rd sel8
  | .zero mask8 => encodeB .zero mask8
  | .setblen => encodeN .setblen
  | .bwr imm8 => encodeB .bwr imm8
  | .brd => encodeN .brd
  | .saltw idx3 imm8 => encodeS .saltw idx3 imm8
  | .hinit => encodeN .hinit
  | .hbyte imm8 => encodeB .hbyte imm8
  | .oracle => encodeN .oracle
  | .mkrec => encodeN .mkrec
  | .kdf => encodeN .kdf
  | .sbinit => encodeN .sbinit
  | .crypt => encodeN .crypt

/-- The four bytes of a stored word, lowest address first (D25). -/
def bytesOfWord (w : Word) : List Byte :=
  [w.extractLsb' 0 8, w.extractLsb' 8 8, w.extractLsb' 16 8, w.extractLsb' 24 8]

/-- The word whose low `nbits` bits are those of `w` and whose other bits are zero. -/
def tableWord (nbits w : Nat) : Word := BitVec.ofNat 32 (w % 2 ^ nbits)

/-- What the decoder reads from the word whose bits are `w`, laid out as a host stores it (D25). -/
def decodeTableWord (nbits w : Nat) : Option Instr :=
  match decodeBytes (bytesOfWord (tableWord nbits w)) with
  | .ok (i, _) => some i
  | .error _ => none

end Sys2Proof
end

