-- ==== Sys2Proof/Config.lean ====
section
/-! DEFINITION. What an implementation fixes: the parameters of 00_scope.md rule R6. They never change
while the engine runs and no command writes them; "a model takes them as arguments" (R6), and the
model's state carries them as one record (log entry 1). -/

namespace Sys2Proof

/-- `N_MK` of rule R6: the length in bytes of ObfuscatedConstant and of MasterKey. -/
abbrev Config.nMk : Nat := 16

/-- `SALT_LEN` of rule R6. -/
abbrev Config.saltLen : Nat := 8

/-- `SBOX_N` of rule R6: the entries of a permutation table. -/
abbrev Config.sboxN : Nat := 256

/-- The open parameters of rule R6 (93_implementation_defined.md U1, U2, U3): the embedded constants
`OBF` and `SECRET` (of any length, 0 included) and the capacities `BUF_SIZE` and `DK_MAX`, each with
the bounds the spec gives it. -/
structure Config where
  /-- `OBF[0..N_MK-1]`, the ObfuscatedConstant. -/
  obf : Vector Byte Config.nMk
  /-- `SECRET[0..L_ST-1]`, the SecretTable; `L_ST` is its length. -/
  secret : List Byte
  /-- `BUF_SIZE`, the bytes of buffer memory. -/
  bufSize : Nat
  /-- `DK_MAX`, the capacity in bytes of DerivedKey storage. -/
  dkMax : Nat
  bufSize_pos : 1 ≤ bufSize
  bufSize_le : bufSize ≤ 4294967296
  dkMax_ge : 32 ≤ dkMax
  deriving DecidableEq, Repr

/-- The contents of `OBF` in the deployed engine: OPEN (U1), so a constant without a body: nothing can
be proved of its value (log entry 1). -/
opaque Config.deployedObf : Vector Byte Config.nMk

/-- The contents and the length of `SECRET` in the deployed engine: OPEN (U2), a constant without a
body (log entry 1). -/
opaque Config.deployedSecret : List Byte

/-- The configuration of this hardware: the open tables, and the values rule R6 gives `BUF_SIZE` and
`DK_MAX`. -/
def Config.deployed : Config where
  obf := Config.deployedObf
  secret := Config.deployedSecret
  bufSize := 65536
  dkMax := 512
  bufSize_pos := by decide
  bufSize_le := by decide
  dkMax_ge := by decide

end Sys2Proof
end

