-- ==== Sys2Proof/Machine/Params.lean ====
section
/-! DEFINITION. The fixed literals of 00_scope.md rule R6. DOC's literals are unaudited (R7), so they stand
here, one definition each. -/

namespace Sys2Proof.Machine

/-- `HASH_INIT` (R6, 41_hash.md R120). -/
def hashInit : Word := 0x811C9DC5

/-- `HASH_MUL` (R6, R120). -/
def hashMul : Word := 0x01000193

/-- `ORACLE_XOR` (R6, 42_oracle.md R130). -/
def oracleXor : Word := 0xA5A5A5A5

/-- `SBINIT_SEED` (R6, 45_sbox_init.md R162). -/
def sbinitSeed : Word := 0x00001234

/-- `MASK` (R6, 43_master_key.md R140). -/
def mkMask : Byte := 0x5A

/-- `ROT` (R6, R140). -/
def mkRot : Nat := 3

/-- `PIPE_DK_LEN` (R6, 47_container_host.md R184). -/
def pipeDkLen : Nat := 32

end Sys2Proof.Machine
end

