-- ==== Sys2Proof/Machine/State.lean ====
section
/-! DEFINITION. The state of one engine: the tuple of 10_state.md rule R20, "complete", with the
configuration it runs under (00_scope.md R6) and the host's command list and position (R24) beside it;
its reset values (R44); and the reasons a step can stop. -/

namespace Sys2Proof.Machine

/-- The buffer memory `BUF` (R39, 20_memory.md R60): address and byte, in one canonical form
(`Memory.wf`); an address not listed reads 0x00, its reset value (R44). -/
abbrev Memory := List Host.Cell

/-- A table of 256 bytes indexed 0..255 (R38). -/
abbrev Table := Vector Byte Config.sboxN

/-- The state of the machine. -/
@[ext]
structure State where
  /-- The parameters of R6; no command writes them. The model's field, not the engine's (log entry 1). -/
  cfg : Config
  /-- The host's command list `prog` (R24). The model's field (log entry 2). -/
  prog : List Word
  /-- The host's position in `prog` (R24). The model's field (log entry 2). -/
  k : Nat
  /-- `ARG` (R21). -/
  arg : Word
  /-- `DOUT` (R22). -/
  dout : Word
  /-- `CIDX` (R23, R211). -/
  cidx : Word
  /-- `H` (R34). -/
  h : Word
  /-- `DEC` (R25). -/
  dec : Bool
  /-- `MKV` (R26). -/
  mkv : Bool
  /-- `SALTV`, one bit per salt byte (R27). -/
  saltv : BitVec 8
  /-- `DKV` (R26). -/
  dkv : Bool
  /-- `SBV` (R26). -/
  sbv : Bool
  /-- `FLT` (R28). -/
  flt : Bool
  /-- `CAUSE` (R30). -/
  cause : BitVec 8
  /-- `ECMD` (R31). -/
  ecmd : Word
  /-- `BLEN` (R32). -/
  blen : Word
  /-- `DKLEN` (R33). -/
  dklen : Word
  /-- `MK[0..N_MK-1]` (R35); named `mkey` because `mk` is the constructor. -/
  mkey : Vector Byte Config.nMk
  /-- `SALT[0..7]` (R36). -/
  salt : Vector Byte Config.saltLen
  /-- `DK[0..DKLEN-1]` (R37). -/
  dk : List Byte
  /-- `SBOX0[0..255]` (R38). -/
  sbox0 : Table
  /-- `BUF[0..BUF_SIZE-1]` (R39). -/
  buf : Memory
  deriving DecidableEq, Repr

/-- The reasons the model stops with a fault. The engine's own faults (60_exceptions.md R200) are none
of these: each is taken, and the engine goes on in its faulted state (R206). -/
inductive Fault where
  /-- Raised by CRYPT when `BLEN > BUF_SIZE`, so that the bytes it would transform include addresses
  that do not exist (R60, R61). Safe: no run reaches such a state (R32, R42 (a)), and the model stops
  there where no engine is defined (log entry 4). -/
  | bufAddressAbsent
  deriving DecidableEq, Repr

/-- The reasons the model refuses an instruction. -/
inductive Refusal where
  /-- Raised by an arm of `exec` whose instruction has no meaning yet; no arm is left that raises it.
  Safe: the model stops. -/
  | notModelled (mnemonic : String)
  deriving DecidableEq, Repr

/-- Every piece of the engine's state at its reset value (R44), under a configuration, with the host's
command list and position as given: reset does not touch what is not the engine's (R44, R230). -/
def State.resetWith (cfg : Config) (prog : List Word) (k : Nat) : State where
  cfg := cfg
  prog := prog
  k := k
  arg := 0
  dout := 0
  cidx := 0
  h := hashInit
  dec := false
  mkv := false
  saltv := 0
  dkv := false
  sbv := false
  flt := false
  cause := 0
  ecmd := 0
  blen := 0
  dklen := 0
  mkey := Vector.replicate _ 0
  salt := Vector.replicate _ 0
  dk := []
  sbox0 := Vector.replicate _ 0
  buf := []

/-- The machine right after reset (R44, R231), with no command list placed before it (log entry 2). -/
def State.reset : State := State.resetWith Config.deployed [] 0

end Sys2Proof.Machine
end

