-- ==== Sys2Proof/Machine/Ops.lean ====
section
/-! DEFINITION. The named operations over the state: rotations (00_scope.md R10), the buffer memory
(20_memory.md), one write per register or store, reset (R230), taking a fault (60_exceptions.md R204),
and the envelope every command runs in (40_control_and_data.md R106). -/

namespace Sys2Proof.Machine

/-- What one command or one step answers. -/
abbrev Result := Host.Outcome State Fault Refusal

/-! ### Rotations (R10) -/

/-- `rotl32(x, n)` of rule R10. -/
def rotl32 (x : Word) (n : Nat) : Word :=
  let r := n % 32
  (x <<< r) ||| (x >>> (32 - r))

/-- `rotl8(x, n)` of rule R10. -/
def rotl8 (x : Byte) (n : Nat) : Byte :=
  let r := n % 8
  (x <<< r) ||| (x >>> (8 - r))

/-- `rotr8(x, n)` of rule R10. -/
def rotr8 (x : Byte) (n : Nat) : Byte :=
  let r := n % 8
  (x >>> r) ||| (x <<< (8 - r))

/-! ### Tables of 256 bytes (R9, R11) -/

/-- `T[k]` for a byte index: every byte is an index of the table. -/
def Table.get (t : Table) (k : Byte) : Byte := t[k.toNat]'k.isLt

/-- `swap(T[a], T[b])` of rule R11, the identity when `a = b`. -/
def Table.swapAt (t : Table) (a b : Byte) : Table := t.swap a.toNat b.toNat a.isLt b.isLt

/-- The identity permutation, `S[x] = x` (45_sbox_init.md R160). -/
def Table.identity : Table := Vector.ofFn fun x => BitVec.ofNat 8 x.val

/-! ### The buffer memory (R60 to R65) -/

/-- The canonical form: addresses strictly rise, and no entry holds what an unlisted address reads as. -/
abbrev Memory.wf (m : Memory) : Prop :=
  m.Pairwise (fun c d => c.1 < d.1) ∧ ∀ c ∈ m, c.2 ≠ 0#8

/-- Every listed address is below `n`. -/
abbrev Memory.below (n : Nat) (m : Memory) : Prop := ∀ c ∈ m, c.1 < n

/-- `MemRead(a, 1)` of rule R11: the last value written, or the reset value 0x00 (R44, R65). -/
def Memory.read : Memory → Nat → Byte
  | [], _ => 0
  | c :: m, a => if c.1 = a then c.2 else Memory.read m a

/-- An entry for `v` at `a`, or none where `v` is what an unlisted address reads as. -/
def Memory.cell (a : Nat) (v : Byte) : Memory := if v = 0 then [] else [(a, v)]

/-- `MemWrite(a, 1, v)` of rule R11, keeping the canonical form. -/
def Memory.write : Memory → Nat → Byte → Memory
  | [], a, v => Memory.cell a v
  | c :: m, a, v =>
    if a < c.1 then Memory.cell a v ++ c :: m
    else if a = c.1 then Memory.cell a v ++ m
    else c :: Memory.write m a v

/-- The bytes at addresses `0..n-1`, in order. -/
def Memory.readPrefix (m : Memory) (n : Nat) : List Byte := (List.range n).map m.read

/-- The bytes of a list written to consecutive addresses from `a` upwards, in order (R173, R66). -/
def Memory.writeFrom : Memory → Nat → List Byte → Memory
  | m, _, [] => m
  | m, a, b :: bs => Memory.writeFrom (m.write a b) (a + 1) bs

/-- `BUF[a]`. -/
def State.bufByte (s : State) (a : Nat) : Byte := s.buf.read a

/-! ### Register and store writes -/

/-- `ARG <- v` (R21). -/
def State.setArg (s : State) (v : Word) : State := { s with arg := v }

/-- `DOUT <- v` (R22). -/
def State.setDout (s : State) (v : Word) : State := { s with dout := v }

/-- `H <- v` (R34). -/
def State.setH (s : State) (v : Word) : State := { s with h := v }

/-- `DEC <- v` (R25). -/
def State.setDec (s : State) (v : Bool) : State := { s with dec := v }

/-- `BLEN <- v` (R32). -/
def State.setBlen (s : State) (v : Word) : State := { s with blen := v }

/-- `MK` as a whole with its flag (R26, R35). -/
def State.setMk (s : State) (bytes : Vector Byte Config.nMk) (valid : Bool) : State :=
  { s with mkey := bytes, mkv := valid }

/-- `SALT` as a whole with its flags (R27, R36). -/
def State.setSalt (s : State) (bytes : Vector Byte Config.saltLen) (valid : BitVec 8) : State :=
  { s with salt := bytes, saltv := valid }

/-- `DK` as a whole with its length and its flag (R26, R33, R37). -/
def State.setDk (s : State) (bytes : List Byte) (len : Word) (valid : Bool) : State :=
  { s with dk := bytes, dklen := len, dkv := valid }

/-- `SBOX0` as a whole with its flag (R26, R38). -/
def State.setSbox (s : State) (t : Table) (valid : Bool) : State :=
  { s with sbox0 := t, sbv := valid }

/-- `BUF` as a whole (R39). -/
def State.setBuf (s : State) (m : Memory) : State := { s with buf := m }

/-- `CIDX <- (CIDX + 1) mod 2^32` (R23). -/
def State.countCommand (s : State) : State := { s with cidx := s.cidx + 1 }

/-- The host's position moves to the next word (R24). -/
def State.advance (s : State) : State := { s with k := s.k + 1 }

/-- `ARG <- (ARG + 1) mod 2^32`, the post-increment of BWR and BRD (R108, R109). -/
def State.stepArg (s : State) : State := s.setArg (s.arg + 1)

/-! ### Reset, taking a fault, and the envelope -/

/-- Reset, by the hardware or by SRESET (70_reset_and_hazards.md R230, R101): every piece of state takes
its reset value; configuration and the host's own list and position are not the engine's. It is also
the only way out of the faulted state (60_exceptions.md R209). -/
def State.hardwareReset (s : State) : State := State.resetWith s.cfg s.prog s.k

/-- The causes of a fault (R200). -/
inductive Cause where
  /-- `decode(w) = Illegal` (R201). -/
  | illegalCommand
  /-- A key object that has not been produced (R202). -/
  | uninitOperand
  /-- A buffer access outside `0..BUF_SIZE-1` (R203). -/
  | bufAddress
  /-- A length above the capacity of the store it sizes (R205). -/
  | length
  deriving DecidableEq, Repr

/-- The codes of rule R200. -/
def Cause.code : Cause → BitVec 8
  | .illegalCommand => 1
  | .uninitOperand => 2
  | .bufAddress => 3
  | .length => 4

/-- `FLT <- 1; CAUSE <- c; ECMD <- w`, and nothing else (R204). -/
def State.recordFault (s : State) (c : Cause) (w : Word) : State :=
  { s with flt := true, cause := c.code, ecmd := w }

/-- `raise Fault(c)` for a word `w` (R204): the fault is taken, and the engine goes on in its faulted
state. -/
def raiseFault (c : Cause) (w : Word) (s : State) : Result := .next (s.recordFault c w)

/-- A command that has had its effect completes: `CIDX` counts it (R106, R23). -/
def complete (s : State) : Result := .next s.countCommand

/-- The faulted engine ignores the command; otherwise its own rule applies (R106, R206). -/
def unlessFaulted (s : State) (normal : Result) : Result := if s.flt then .next s else normal

/-- An `Illegal` word `w` (R106, R201): cause 1 in the normal state, ignored in the faulted state. -/
def presentIllegal (w : Word) (s : State) : Result :=
  unlessFaulted s (raiseFault .illegalCommand w s)

end Sys2Proof.Machine
end

