-- ==== Sys2Proof/Machine/Flags.lean ====
section
/-! DEFINITION. The flags as the commands and the host see them: the salt's presence (10_state.md R27)
and the view STATUS (R29). -/

namespace Sys2Proof.Machine

/-- One bit as a word. -/
def bitWord (b : Bool) : Word := if b then 1 else 0

/-- The salt is present when `SALTV = 0xFF` (R27); it is STATUS.SALTP (R29). -/
def State.saltPresent (s : State) : Bool := s.saltv == 0xFF

/-- The salt is absent when `SALTV = 0x00` (R27). -/
def State.saltAbsent (s : State) : Bool := s.saltv == 0x00

/-- The salt is partial otherwise (R27). -/
def State.saltPartial (s : State) : Bool := !s.saltPresent && !s.saltAbsent

/-- `STATUS` of rule R29; bits 6:5 and 31:24 read as 0. -/
def State.status (s : State) : Word :=
  bitWord s.mkv ||| bitWord s.saltPresent <<< 1 ||| bitWord s.dkv <<< 2 ||| bitWord s.sbv <<< 3
    ||| bitWord s.dec <<< 4 ||| bitWord s.flt <<< 7
    ||| s.cause.setWidth 32 <<< 8 ||| s.saltv.setWidth 32 <<< 16

end Sys2Proof.Machine
end

