-- ==== Sys2Proof/Machine/Operands.lean ====
section
/-! DEFINITION. The operand forms (30_encoding.md R88, R89): the two halves of `ARG`, the selectors of
RD (10_state.md R34), the mask bits of ZERO (R105), and the buffer address in `ARG` (20_memory.md R61). -/

namespace Sys2Proof.Machine

/-- ARGLO's operand: `zext_32(imm16)` (R88, R102). -/
def lowOperand (imm16 : Half) : Word := imm16.setWidth 32

/-- ARGHI's operand: `(imm16 << 16) | ARG[15:0]` (R88, R103). -/
def highOperand (imm16 : Half) (arg : Word) : Word :=
  imm16.setWidth 32 <<< 16 ||| (arg.extractLsb' 0 16).setWidth 32

/-- The register RD's selector names, `none` for the selectors 7..255 that make the word illegal
(R34, R104). -/
def State.selected (s : State) (sel8 : Byte) : Option Word :=
  match sel8.toNat with
  | 0 => some s.status
  | 1 => some s.h
  | 2 => some s.arg
  | 3 => some s.blen
  | 4 => some s.dklen
  | 5 => some s.cidx
  | 6 => some s.ecmd
  | _ => none

/-- `ARG` is the address of a byte of `BUF` (R61). -/
def State.argInBuf (s : State) : Bool := decide (s.arg.toNat < s.cfg.bufSize)

/-- The salt as KDF's operand: the eight bytes in index order when present, none otherwise (R152, R153). -/
def State.saltOperand (s : State) : Option (List Byte) :=
  if s.saltPresent then some s.salt.toList else none

end Sys2Proof.Machine
end

