-- ==== Sys2Proof/Machine/Buffer.lean ====
section
/-! DEFINITION. The buffer and salt commands SETBLEN, BWR, BRD, SALTW (40_control_and_data.md R107 to
R110). -/

namespace Sys2Proof.Machine

/-- SETBLEN (R107). -/
def execSetblen (s : State) : Result :=
  unlessFaulted s
    (if s.cfg.bufSize < s.arg.toNat then raiseFault .length (encode .setblen) s
    else complete (s.setBlen s.arg))

/-- BWR imm8 (R108). -/
def execBwr (imm8 : Byte) (s : State) : Result :=
  unlessFaulted s
    (if s.argInBuf then complete (s.setBuf (s.buf.write s.arg.toNat imm8)).stepArg
    else raiseFault .bufAddress (encode (.bwr imm8)) s)

/-- BRD (R109). -/
def execBrd (s : State) : Result :=
  unlessFaulted s
    (if s.argInBuf then complete (s.setDout ((s.buf.read s.arg.toNat).setWidth 32)).stepArg
    else raiseFault .bufAddress (encode .brd) s)

/-- SALTW idx3, imm8 (R110). -/
def execSaltw (idx3 : BitVec 3) (imm8 : Byte) (s : State) : Result :=
  unlessFaulted s
    (complete (s.setSalt (s.salt.set idx3.toNat imm8 idx3.isLt) (s.saltv ||| 1#8 <<< idx3.toNat)))

end Sys2Proof.Machine
end

