-- ==== Sys2Proof/Machine/Control.lean ====
section
/-! DEFINITION. The control commands NOP, SRESET, ARGLO, ARGHI, RD, ZERO (40_control_and_data.md R100 to
R105). -/

namespace Sys2Proof.Machine

/-- NOP (R100). -/
def execNop (s : State) : Result := unlessFaulted s (complete s)

/-- SRESET (R101): in the normal and in the faulted state, and not counted. -/
def execSreset (s : State) : Result := .next s.hardwareReset

/-- ARGLO imm16 (R102). -/
def execArglo (imm16 : Half) (s : State) : Result :=
  unlessFaulted s (complete (s.setArg (lowOperand imm16)))

/-- ARGHI imm16 (R103). -/
def execArghi (imm16 : Half) (s : State) : Result :=
  unlessFaulted s (complete (s.setArg (highOperand imm16 s.arg)))

/-- RD sel8 (R104): in the faulted state too, and there not counted (R106); a selector above 6 is an
illegal word. -/
def execRd (sel8 : Byte) (s : State) : Result :=
  match s.selected sel8 with
  | none => presentIllegal (encode (.rd sel8)) s
  | some v => if s.flt then .next (s.setDout v) else complete (s.setDout v)

/-- An operation done where a mask bit is 1 (R105). -/
def State.onBit (mask8 : Byte) (n : Nat) (f : State → State) (s : State) : State :=
  if mask8.getLsbD n then f s else s

/-- The eight lines of ZERO's pseudocode, each independent of the others (R105). -/
def State.zeroed (mask8 : Byte) (s : State) : State :=
  let s := s.onBit mask8 0 fun s => s.setMk (Vector.replicate _ 0) false
  let s := s.onBit mask8 1 fun s => s.setSalt (Vector.replicate _ 0) 0
  let s := s.onBit mask8 2 fun s => s.setDk [] 0 false
  let s := s.onBit mask8 3 fun s => s.setSbox (Vector.replicate _ 0) false
  let s := s.onBit mask8 4 fun s => s.setH hashInit
  let s := s.onBit mask8 5 fun s => s.setDec false
  let s := s.onBit mask8 6 fun s => (s.setBuf []).setBlen 0
  s.onBit mask8 7 fun s => (s.setArg 0).setDout 0

/-- ZERO mask8 (R105). -/
def execZero (mask8 : Byte) (s : State) : Result := unlessFaulted s (complete (s.zeroed mask8))

end Sys2Proof.Machine
end

