-- ==== Sys2Proof/Machine/Hash.lean ====
section
/-! DEFINITION. The NonlinearHash unit: its function (41_hash.md R120, R123) and the commands HINIT and
HBYTE. -/

namespace Sys2Proof.Machine

/-- One byte step: xor the byte, multiply modulo 2^32, fold (R120). The literal is the left factor, so that the
kernel never unfolds the product along it. -/
def hstep (h : Word) (b : Byte) : Word :=
  let x := h ^^^ b.setWidth 32
  let y := hashMul * x
  y ^^^ (y >>> 16)

/-- `NLHash(M)` of rule R120. -/
def nlHash (m : List Byte) : Word := m.foldl hstep hashInit

/-- HINIT (R121). -/
def execHinit (s : State) : Result := unlessFaulted s (complete (s.setH hashInit))

/-- HBYTE imm8 (R122). -/
def execHbyte (imm8 : Byte) (s : State) : Result :=
  unlessFaulted s (complete (s.setH (hstep s.h imm8)))

end Sys2Proof.Machine
end

