-- ==== Sys2Proof/Machine/Kdf.lean ====
section
/-! DEFINITION. The KeyDerivationFunction unit: its function (44_kdf.md R150) and the command KDF. -/

namespace Sys2Proof.Machine

/-- The message of position `p`: `mk ‖ salt ‖ [p mod 256]` (R150). -/
def kdfMessage (mk : List Byte) (salt : Option (List Byte)) (p : Nat) : List Byte :=
  mk ++ salt.getD [] ++ [BitVec.ofNat 8 p]

/-- `KDFn(mk, salt, n)` of rule R150. -/
def kdfn (mk : List Byte) (salt : Option (List Byte)) (n : Nat) : List Byte :=
  (List.range n).map fun p => (nlHash (kdfMessage mk salt p)).extractLsb' 0 8

/-- KDF (R153), its faults in the rule's order (R207). -/
def execKdf (s : State) : Result :=
  unlessFaulted s
    (if !s.mkv then raiseFault .uninitOperand (encode .kdf) s
    else if s.saltPartial then raiseFault .uninitOperand (encode .kdf) s
    else if s.cfg.dkMax < s.arg.toNat then raiseFault .length (encode .kdf) s
    else complete (s.setDk (kdfn s.mkey.toList s.saltOperand s.arg.toNat) s.arg true))

end Sys2Proof.Machine
end

