-- ==== Sys2Proof/Machine/Oracle.lean ====
section
/-! DEFINITION. The DecisionOracle unit: its function (42_oracle.md R130, R131) and the command ORACLE. -/

namespace Sys2Proof.Machine

/-- `OracleWord(T, i)`: four bytes taken cyclically, big-endian (R131). Never used with an empty table. -/
def oracleWord (t : List Byte) (i : Nat) : Word :=
  let byte := fun n => t.getD ((i + n) % t.length) 0
  byte 0 ++ byte 1 ++ byte 2 ++ byte 3

/-- The body of the walk at stride index `i` (R130). -/
def oracleStride (t : List Byte) (acc : Word) (i : Nat) : Word :=
  let turned := rotl32 (acc ^^^ oracleWord t i) (i % 32)
  turned ^^^ rotl32 turned 13

/-- The stride indices `0, 4, 8, ..` below `len(T)`: `ceil(L / 4)` of them (R130). -/
def strideIndices (len : Nat) : List Nat := (List.range ((len + 3) / 4)).map (4 * ·)

/-- `OracleAcc(T, seed)` of rule R130. -/
def oracleAcc (t : List Byte) (seed : Word) : Word :=
  (strideIndices t.length).foldl (oracleStride t) (seed ^^^ oracleXor)

/-- `Oracle(T, seed)` of rule R130: `acc mod 3 = 0` on the unsigned accumulator. -/
def oracleOf (t : List Byte) (seed : Word) : Bool := (oracleAcc t seed).toNat % 3 == 0

/-- ORACLE (R133). -/
def execOracle (s : State) : Result :=
  unlessFaulted s (complete (s.setDec (oracleOf s.cfg.secret s.arg)))

end Sys2Proof.Machine
end

