-- ==== Sys2Proof/Machine/Keystream.lean ====
section
/-! DEFINITION. The KeystreamEngine unit: its function (46_keystream.md R170, R171, R172) and the command
CRYPT. -/

namespace Sys2Proof.Machine

/-- The swap of one position (R170): an explicit branch on the oracle, both arms the same swap (R171,
90_conflicts.md C3). -/
def keystreamSwap (t : List Byte) (pos : Nat) (w : Table) (i j : Byte) : Table :=
  if oracleOf t (BitVec.ofNat 32 pos) then w.swapAt i j else w.swapAt i j

/-- `out` of a position, from the table after the swap and the updated indices (R170, R172). -/
def keystreamByte (w : Table) (i j : Byte) : Byte :=
  rotr8 (w.get (w.get i + w.get j)) ((i.toNat + j.toNat) % 8)

/-- The positions from `pos` on, with the working table and indices they start with (R170). -/
def cryptFrom (t : List Byte) : List Byte → Table → Byte → Byte → Nat → List Byte
  | [], _, _, _, _ => []
  | b :: bs, w, i, j, pos =>
    let i' := i + 1
    let j' := j + w.get i'
    let w' := keystreamSwap t pos w i' j'
    (b ^^^ keystreamByte w' i' j') :: cryptFrom t bs w' i' j' (pos + 1)

/-- `CryptBuffer(B, S0, T)` of rule R170; the working table starts as a copy of `S0` (R176). -/
def cryptBuffer (b : List Byte) (s0 : Table) (t : List Byte) : List Byte := cryptFrom t b s0 0 0 0

/-- `Keystream(n, S0, T)` of rule R170. -/
def keystream (n : Nat) (s0 : Table) (t : List Byte) : List Byte :=
  cryptBuffer (List.replicate n 0) s0 t

/-- CRYPT (R173). The stop is for `BLEN > BUF_SIZE`, which no run reaches (R42 (a), log entry 4). -/
def execCrypt (s : State) : Result :=
  unlessFaulted s
    (if !s.sbv then raiseFault .uninitOperand (encode .crypt) s
    else if s.cfg.bufSize < s.blen.toNat then .fault .bufAddressAbsent
    else
      complete (s.setBuf (s.buf.writeFrom 0
        (cryptBuffer (s.buf.readPrefix s.blen.toNat) s.sbox0 s.cfg.secret))))

end Sys2Proof.Machine
end

