-- ==== Sys2Proof/Machine/MasterKey.lean ====
section
/-! DEFINITION. The MasterKeyReconstructor unit: its functions (43_master_key.md R140, R142) and the
command MKREC. -/

namespace Sys2Proof.Machine

/-- `Reconstruct(e) = rotl8(e, 3) ^ 0x5A` (R140). -/
def reconstruct (e : Byte) : Byte := rotl8 e mkRot ^^^ mkMask

/-- `Obfuscate(b) = rotr8(b ^ 0x5A, 3)`, the offline step MKREC inverts (R142); no command runs it. -/
def obfuscate (b : Byte) : Byte := rotr8 (b ^^^ mkMask) mkRot

/-- The MasterKey of a configuration (R141, R184). -/
def masterKey (cfg : Config) : Vector Byte Config.nMk := cfg.obf.map reconstruct

/-- MKREC (R141). -/
def execMkrec (s : State) : Result := unlessFaulted s (complete (s.setMk (masterKey s.cfg) true))

end Sys2Proof.Machine
end

