-- ==== Sys2Proof/Machine/SBox.lean ====
section
/-! DEFINITION. The SBoxInitializer unit: its function (45_sbox_init.md R160, R161, R162) and the command
SBINIT. -/

namespace Sys2Proof.Machine

/-- `k` of iteration `i`: the key byte, 0 for an empty DerivedKey (R160). -/
def keyByte (dk : List Byte) (i : Nat) : Byte := if dk.length = 0 then 0 else dk.getD (i % dk.length) 0

/-- `addA = ((i * i) >> 3) mod 256` (R161). -/
def addA (i : Nat) : Byte := BitVec.ofNat 8 ((i * i) >>> 3)

/-- `addB = (i * 7) mod 256` (R161). -/
def addB (i : Nat) : Byte := BitVec.ofNat 8 (i * 7)

/-- Iteration `i`, `0 <= i <= 255`, on the table `S` and the index `j` (R160). -/
def sboxStep (dk : List Byte) (d : Bool) (sj : Table × Byte) (i : Nat) : Table × Byte :=
  let index : Byte := BitVec.ofNat 8 i
  if d then
    let j := sj.2 + sj.1.get index + keyByte dk i + addA i
    (sj.1.swapAt index j, j)
  else
    let j := sj.2 + sj.1.get index + keyByte dk i + addB i
    (sj.1.swapAt (index + 1) j, j)

/-- The first `n` iterations of rule R160 from the identity and `j = 0`. -/
def sboxRun (dk : List Byte) (d : Bool) (n : Nat) : Table × Byte :=
  (List.range n).foldl (sboxStep dk d) (Table.identity, 0)

/-- `SBoxInit(dk, d)` of rule R160. -/
def sboxInit (dk : List Byte) (d : Bool) : Table := (sboxRun dk d Config.sboxN).1

/-- The fixed decision, `Oracle(SECRET, 0x00001234)`, evaluated once per SBINIT (R162). -/
def sboxDecision (cfg : Config) : Bool := oracleOf cfg.secret sbinitSeed

/-- SBINIT (R163). -/
def execSbinit (s : State) : Result :=
  unlessFaulted s
    (if !s.dkv then raiseFault .uninitOperand (encode .sbinit) s
    else complete (s.setSbox (sboxInit s.dk (sboxDecision s.cfg)) true))

end Sys2Proof.Machine
end

