-- ==== Sys2Proof/Machine/Dispatch.lean ====
section
/-! DEFINITION. One arm per constructor of `Instr`, each a direct call of its meaning. -/

namespace Sys2Proof.Machine

/-- Presenting the command `i` to the engine in state `s` (40_control_and_data.md R106). -/
def exec (i : Instr) (s : State) : Host.Outcome State Fault Refusal :=
  match i with
  | .nop => Sys2Proof.Machine.execNop s
  | .sreset => Sys2Proof.Machine.execSreset s
  | .arglo imm16 => Sys2Proof.Machine.execArglo imm16 s
  | .arghi imm16 => Sys2Proof.Machine.execArghi imm16 s
  | .rd sel8 => Sys2Proof.Machine.execRd sel8 s
  | .zero mask8 => Sys2Proof.Machine.execZero mask8 s
  | .setblen => Sys2Proof.Machine.execSetblen s
  | .bwr imm8 => Sys2Proof.Machine.execBwr imm8 s
  | .brd => Sys2Proof.Machine.execBrd s
  | .saltw idx3 imm8 => Sys2Proof.Machine.execSaltw idx3 imm8 s
  | .hinit => Sys2Proof.Machine.execHinit s
  | .hbyte imm8 => Sys2Proof.Machine.execHbyte imm8 s
  | .oracle => Sys2Proof.Machine.execOracle s
  | .mkrec => Sys2Proof.Machine.execMkrec s
  | .kdf => Sys2Proof.Machine.execKdf s
  | .sbinit => Sys2Proof.Machine.execSbinit s
  | .crypt => Sys2Proof.Machine.execCrypt s

end Sys2Proof.Machine
end

