-- ==== Sys2Proof/Machine/Fetch.lean ====
section
/-! DEFINITION. Where a command word comes from: the engine fetches nothing, the host presents each word of
its list in order (10_state.md R23, R24); and the envelope of a presented word
(40_control_and_data.md R106). -/

namespace Sys2Proof.Machine

/-- The word the host presents next, if its list is not exhausted (R24, 60_exceptions.md R217). -/
def State.nextWord (s : State) : Option Word := s.prog[s.k]?

/-- Presenting the word `w` (R106). -/
def presentWord (w : Word) (s : State) : Result :=
  match decode w with
  | .ok i => exec i s
  | .error _ => presentIllegal w s

/-- One step of the machine: the host presents its next word and its position moves on by 1 whatever
the word does (R24); with no word left the engine waits, and waiting keeps all state (R212). -/
def stepWord (s : State) : Result :=
  match s.nextWord with
  | none => .next s
  | some w => presentWord w s.advance

/-- The list with `w` at position `k`; positions before `k` that the list lacks hold NOP, which the host,
being past them, never presents. -/
def placeAt : List Word → Nat → Word → List Word
  | [], 0, w => [w]
  | [], k + 1, w => 0 :: placeAt [] k w
  | _ :: rest, 0, w => w :: rest
  | x :: rest, k + 1, w => x :: placeAt rest k w

/-- The state with `w` as the word the host presents next. -/
def State.withNext (s : State) (w : Word) : State := { s with prog := placeAt s.prog s.k w }

end Sys2Proof.Machine
end

