-- ==== Sys2Proof/Machine/Step.lean ====
section
/-! DEFINITION. One step of the machine, and the state in which a given word is the next one presented. -/

namespace Sys2Proof.Machine

/-- One step (10_state.md R24, 40_control_and_data.md R106). -/
def step (s : State) : Host.Outcome State Fault Refusal := stepWord s

/-- `s` with the instruction whose bits are `w` as the word the host presents next. -/
def State.withFetchWord (s : State) (nbits w : Nat) : State := s.withNext (tableWord nbits w)

end Sys2Proof.Machine
end

