-- ==== Sys2Proof/Machine/Engines.lean ====
section
/-! DEFINITION. Several engines (60_exceptions.md R213): the product of independent single-engine models. -/

namespace Sys2Proof.Machine

/-- One step of engine `n` of several; the others keep their whole state, and an engine that does not
exist takes no step. -/
def stepEngine (n : Nat) (engines : List State) : Host.Outcome (List State) Fault Refusal :=
  match engines[n]? with
  | none => .next engines
  | some s =>
    match step s with
    | .next t => .next (engines.set n t)
    | .fault r => .fault r
    | .refused r => .refused r

end Sys2Proof.Machine
end

