-- ==== Sys2Proof/Machine/Assembler.lean ====
section
/-! DEFINITION. The spec's pseudo-instructions (30_encoding.md R94) and its assembler syntax (R92), one
line at a time, a line being a list of characters. An operand that does not fit its field is an error,
never truncated. Neither is part of the engine: both make commands. -/

namespace Sys2Proof.Machine

/-! ### Pseudo-instructions (R94) -/

/-- `LDARG v`: always both halves. -/
def ldarg (v : Word) : List Instr := [.arglo (v.extractLsb' 0 16), .arghi (v.extractLsb' 16 16)]

/-- `SALT8 b0, .., b7`. -/
def salt8 (salt : Vector Byte 8) : List Instr :=
  (List.finRange 8).map fun t => .saltw (BitVec.ofNat 3 t.val) salt[t]

/-- `HASHB b0, .., bn-1`. -/
def hashb (bytes : List Byte) : List Instr := .hinit :: bytes.map .hbyte

/-- `BLOAD a, b0, .., bn-1`. -/
def bload (a : Word) (bytes : List Byte) : List Instr := ldarg a ++ bytes.map .bwr

/-- `BDUMP a, n`; the host collects `DOUT[7:0]` after each BRD. -/
def bdump (a : Word) (n : Nat) : List Instr := ldarg a ++ List.replicate n .brd

/-! ### Assembler syntax (R92) -/

/-- What makes a line an assembly error. -/
inductive AsmError where
  /-- The first word of the line is no mnemonic of R87 or R94. -/
  | unknownMnemonic
  /-- The mnemonic takes another number of operands. -/
  | operandCount
  /-- An operand is neither a number nor a name its place allows. -/
  | badOperand
  /-- An operand does not fit its field. -/
  | outOfRange
  deriving DecidableEq, Repr

/-- A mnemonic of R87 or of R94. -/
inductive Mnemonic where
  | op (o : Op)
  | ldarg | salt8 | hashb | bload | bdump
  deriving DecidableEq, Repr

/-- The mnemonics, in capitals. -/
def mnemonicNames : List (List Char × Mnemonic) :=
  [(['N', 'O', 'P'], .op .nop), (['S', 'R', 'E', 'S', 'E', 'T'], .op .sreset),
   (['A', 'R', 'G', 'L', 'O'], .op .arglo), (['A', 'R', 'G', 'H', 'I'], .op .arghi),
   (['R', 'D'], .op .rd), (['Z', 'E', 'R', 'O'], .op .zero),
   (['S', 'E', 'T', 'B', 'L', 'E', 'N'], .op .setblen), (['B', 'W', 'R'], .op .bwr),
   (['B', 'R', 'D'], .op .brd), (['S', 'A', 'L', 'T', 'W'], .op .saltw),
   (['H', 'I', 'N', 'I', 'T'], .op .hinit), (['H', 'B', 'Y', 'T', 'E'], .op .hbyte),
   (['O', 'R', 'A', 'C', 'L', 'E'], .op .oracle), (['M', 'K', 'R', 'E', 'C'], .op .mkrec),
   (['K', 'D', 'F'], .op .kdf), (['S', 'B', 'I', 'N', 'I', 'T'], .op .sbinit),
   (['C', 'R', 'Y', 'P', 'T'], .op .crypt),
   (['L', 'D', 'A', 'R', 'G'], .ldarg), (['S', 'A', 'L', 'T', '8'], .salt8),
   (['H', 'A', 'S', 'H', 'B'], .hashb), (['B', 'L', 'O', 'A', 'D'], .bload),
   (['B', 'D', 'U', 'M', 'P'], .bdump)]

/-- The names RD's selector may be given by. -/
def selectorNames : List (List Char × Nat) :=
  [(['S', 'T', 'A', 'T', 'U', 'S'], 0), (['H'], 1), (['A', 'R', 'G'], 2), (['B', 'L', 'E', 'N'], 3),
   (['D', 'K', 'L', 'E', 'N'], 4), (['C', 'I', 'D', 'X'], 5), (['E', 'C', 'M', 'D'], 6)]

/-- The names ZERO's mask may be given by, joined by `|`. -/
def maskNames : List (List Char × Nat) :=
  [(['M', 'K'], 0x01), (['S', 'A', 'L', 'T'], 0x02), (['D', 'K'], 0x04), (['S', 'B', 'O', 'X'], 0x08),
   (['H', 'A', 'S', 'H'], 0x10), (['D', 'E', 'C'], 0x20), (['B', 'U', 'F'], 0x40),
   (['R', 'E', 'G', 'S'], 0x80)]

/-- The entry of a name in a list of names. -/
def nameOf? {α : Type} (names : List (List Char × α)) (t : List Char) : Option α :=
  (names.find? fun e => e.1 == t).map (·.2)

/-- Blank space inside a line. -/
def isBlank (c : Char) : Bool := c == ' ' || c == '\t'

/-- A token without the blanks around it. -/
def trimBlanks (t : List Char) : List Char :=
  ((t.dropWhile isBlank).reverse.dropWhile isBlank).reverse

/-- The pieces of a list of characters between the separators `sep`; one piece where there is none. -/
def pieces (sep : Char) (t : List Char) : List (List Char) :=
  t.foldr (fun c acc => if c == sep then [] :: acc else
    match acc with
    | [] => [[c]]
    | p :: ps => (c :: p) :: ps) [[]]

/-- The value of a digit, hexadecimal digits in either case. -/
def digitValue (c : Char) : Option Nat :=
  let n := c.toNat
  if 48 ≤ n ∧ n ≤ 57 then some (n - 48)
  else if 65 ≤ n ∧ n ≤ 70 then some (n - 55)
  else if 97 ≤ n ∧ n ≤ 102 then some (n - 87)
  else none

/-- The value of a non-empty list of digits of a base. -/
def digitsValue (base : Nat) (t : List Char) : Option Nat :=
  if t.isEmpty then none
  else t.foldl (fun acc c => do
    let v ← acc
    let d ← digitValue c
    if d < base then some (v * base + d) else none) (some 0)

/-- A decimal number or a `0x` hexadecimal number (R92). -/
def numberOf? : List Char → Option Nat
  | '0' :: 'x' :: rest => digitsValue 16 rest
  | t => digitsValue 10 t

/-- The operand as a value of an `n`-bit field; too large a number is an error, never truncated (R92). -/
def fieldOf (n : Nat) (v : Nat) : Except AsmError (BitVec n) :=
  if v < 2 ^ n then .ok (BitVec.ofNat n v) else .error .outOfRange

/-- A number operand of an `n`-bit field. -/
def numberField (n : Nat) (t : List Char) : Except AsmError (BitVec n) :=
  match numberOf? t with
  | some v => fieldOf n v
  | none => .error .badOperand

/-- RD's operand: a selector name or a number from 0 to 6, the selectors that have a word. -/
def selectorField (t : List Char) : Except AsmError Byte :=
  match nameOf? selectorNames t with
  | some v => fieldOf 8 v
  | none => do
    let sel ← numberField 8 t
    if rdSelectorLegal sel then .ok sel else .error .outOfRange

/-- ZERO's operand: mask names joined by `|`, or a number. -/
def maskField (t : List Char) : Except AsmError Byte :=
  match ((pieces '|' t).map trimBlanks).mapM (nameOf? maskNames) with
  | some vs => fieldOf 8 (vs.foldl (· ||| ·) 0)
  | none => numberField 8 t

/-- A mnemonic without operands. -/
def noOperand (is : List Instr) : List (List Char) → Except AsmError (List Instr)
  | [] => .ok is
  | _ => .error .operandCount

/-- A mnemonic with one operand. -/
def oneOperand {α : Type} (field : List Char → Except AsmError α) (make : α → List Instr) :
    List (List Char) → Except AsmError (List Instr)
  | [a] => (field a).map make
  | _ => .error .operandCount

/-- A mnemonic with two operands. -/
def twoOperands {α β : Type} (first : List Char → Except AsmError α)
    (second : List Char → Except AsmError β) (make : α → β → List Instr) :
    List (List Char) → Except AsmError (List Instr)
  | [a, b] =>
    match first a, second b with
    | .ok v, .ok w => .ok (make v w)
    | .error e, _ => .error e
    | _, .error e => .error e
  | _ => .error .operandCount

/-- A mnemonic with any number of byte operands. -/
def byteOperands (make : List Byte → Except AsmError (List Instr)) (ts : List (List Char)) :
    Except AsmError (List Instr) :=
  match ts.mapM (numberField 8) with
  | .ok bytes => make bytes
  | .error e => .error e

/-- SALT8 takes exactly eight bytes. -/
def salt8Of (bytes : List Byte) : Except AsmError (List Instr) :=
  if h : bytes.length = 8 then .ok (salt8 ⟨bytes.toArray, by simpa using h⟩) else .error .operandCount

/-- BLOAD takes an address and then any number of bytes. -/
def bloadOperands : List (List Char) → Except AsmError (List Instr)
  | a :: bs =>
    match numberField 32 a with
    | .ok v => byteOperands (fun bytes => .ok (bload v bytes)) bs
    | .error e => .error e
  | [] => .error .operandCount

/-- A count, of no field. -/
def countField (t : List Char) : Except AsmError Nat :=
  match numberOf? t with
  | some c => .ok c
  | none => .error .badOperand

/-- The commands an opcode's mnemonic and its operands stand for; operand order is that of R87. -/
def assembleOp : Op → List (List Char) → Except AsmError (List Instr)
  | .nop => noOperand [.nop]
  | .sreset => noOperand [.sreset]
  | .arglo => oneOperand (numberField 16) fun v => [.arglo v]
  | .arghi => oneOperand (numberField 16) fun v => [.arghi v]
  | .rd => oneOperand selectorField fun v => [.rd v]
  | .zero => oneOperand maskField fun v => [.zero v]
  | .setblen => noOperand [.setblen]
  | .bwr => oneOperand (numberField 8) fun v => [.bwr v]
  | .brd => noOperand [.brd]
  | .saltw => twoOperands (numberField 3) (numberField 8) fun idx3 imm8 => [.saltw idx3 imm8]
  | .hinit => noOperand [.hinit]
  | .hbyte => oneOperand (numberField 8) fun v => [.hbyte v]
  | .oracle => noOperand [.oracle]
  | .mkrec => noOperand [.mkrec]
  | .kdf => noOperand [.kdf]
  | .sbinit => noOperand [.sbinit]
  | .crypt => noOperand [.crypt]

/-- The commands a mnemonic of R87 or R94 and its operands stand for. -/
def assembleOperands : Mnemonic → List (List Char) → Except AsmError (List Instr)
  | .op o => assembleOp o
  | .ldarg => oneOperand (numberField 32) ldarg
  | .salt8 => byteOperands salt8Of
  | .hashb => byteOperands fun bytes => .ok (hashb bytes)
  | .bload => bloadOperands
  | .bdump => twoOperands (numberField 32) countField bdump

/-- The operands of a line: its text after the mnemonic, cut at commas; none where nothing is left. -/
def operandsOf (t : List Char) : List (List Char) :=
  if (trimBlanks t).isEmpty then [] else (pieces ',' t).map trimBlanks

/-- The commands of one line (R92): a comment runs from `;` to the end, and a line with nothing else
stands for no command. -/
def assembleLine (line : List Char) : Except AsmError (List Instr) :=
  let text := trimBlanks (line.takeWhile (· != ';'))
  if text.isEmpty then .ok []
  else
    match nameOf? mnemonicNames (text.takeWhile fun c => !isBlank c) with
    | none => .error .unknownMnemonic
    | some m => assembleOperands m (operandsOf (text.dropWhile fun c => !isBlank c))

/-- The command words of a list of lines, as the host presents them. -/
def assemble (lines : List (List Char)) : Except AsmError (List Word) :=
  (lines.mapM assembleLine).map fun cs => cs.flatten.map encode

end Sys2Proof.Machine
end

