-- ==== Sys2Proof/Machine/Container.lean ====
section
/-! DEFINITION. The container format and the decrypt pipeline as functions (47_container_host.md R180 to
R184). They are the host's, not the engine's (00_scope.md R4). -/

namespace Sys2Proof.Machine

/-- The errors the host ends with (60_exceptions.md R216). -/
inductive HostError where
  /-- FormatError (R182). -/
  | formatError
  /-- CapacityError: the payload does not fit `BUF` (R187). -/
  | capacityError
  /-- The engine recorded a fault, so nothing is emitted (R188). -/
  | engineFault
  deriving DecidableEq, Repr

/-- The fields of a container (R180). -/
structure Container where
  version : Byte
  reserved : Vector Byte 3
  salt : Vector Byte 8
  payload : List Byte
  deriving DecidableEq, Repr

/-- The magic "CR4F" (R180). -/
def magic : List Byte := [0x43, 0x52, 0x34, 0x46]

/-- The header's length (R180). -/
def headerLen : Nat := 20

/-- PayloadLength, four bytes little-endian (R181, 20_memory.md R62 (b)). -/
def payloadLength (f : List Byte) : Nat :=
  (f.getD 16 0).toNat + (f.getD 17 0).toNat * 2 ^ 8 + (f.getD 18 0).toNat * 2 ^ 16
    + (f.getD 19 0).toNat * 2 ^ 24

/-- The `n` bytes of `f` from offset `a`. -/
def fieldAt (f : List Byte) (a n : Nat) : Vector Byte n := Vector.ofFn fun t => f.getD (a + t.val) 0

/-- `Parse(F)` of rule R182; version, reserved bytes and bytes after the payload are not checked (R183). -/
def parse (f : List Byte) : Except HostError Container :=
  if f.length < headerLen then .error .formatError
  else if f.take 4 ≠ magic then .error .formatError
  else if f.length - headerLen < payloadLength f then .error .formatError
  else .ok
    { version := f.getD 4 0
      reserved := fieldAt f 5 3
      salt := fieldAt f 8 8
      payload := (f.drop headerLen).take (payloadLength f) }

/-- The four bytes of a PayloadLength (R180, R181). -/
def lengthBytes (n : Nat) : List Byte :=
  [BitVec.ofNat 8 n, BitVec.ofNat 8 (n / 2 ^ 8), BitVec.ofNat 8 (n / 2 ^ 16), BitVec.ofNat 8 (n / 2 ^ 24)]

/-- The bytes of a container, laid out as R180 says. -/
def Container.layout (c : Container) : List Byte :=
  magic ++ [c.version] ++ c.reserved.toList ++ c.salt.toList ++ lengthBytes c.payload.length ++ c.payload

/-- The InitialSBox of a salt: MasterKey, DerivedKey of 32 bytes, S-box (R184). -/
def pipelineSbox (cfg : Config) (salt : List Byte) : Table :=
  sboxInit (kdfn (masterKey cfg).toList (some salt) pipeDkLen) (sboxDecision cfg)

/-- `Decrypt(F)` of rule R184, the payload alone. -/
def decrypt (cfg : Config) (f : List Byte) : Except HostError (List Byte) :=
  match parse f with
  | .error e => .error e
  | .ok c => .ok (cryptBuffer c.payload (pipelineSbox cfg c.salt.toList) cfg.secret)

end Sys2Proof.Machine
end

