-- ==== Sys2Proof/Machine/HostProcedure.lean ====
section
/-! DEFINITION. The host's decrypt procedure (47_container_host.md R185 to R188): the command list it
presents, and what it emits. -/

namespace Sys2Proof.Machine

/-- Lines 1 to 13 of the list of rule R185, the lifecycle ZERO lines among them (R186). -/
def decryptCommands (salt : Vector Byte 8) (payload : List Byte) : List Instr :=
  [.sreset, .mkrec] ++ salt8 salt ++ ldarg (BitVec.ofNat 32 pipeDkLen) ++ [.kdf, .zero 0x01, .sbinit, .zero 0x06]
    ++ bload 0 payload ++ ldarg (BitVec.ofNat 32 payload.length) ++ [.setblen, .crypt, .zero 0x08]

/-- The whole list of rule R185, line 14 included, as words. -/
def decryptList (salt : Vector Byte 8) (payload : List Byte) : List Word :=
  (decryptCommands salt payload ++ bdump 0 payload.length).map encode

/-- Presenting commands one after the other (R24). -/
def presentAll : List Instr → State → Result
  | [], s => .next s
  | i :: is, s =>
    match presentWord (encode i) s with
    | .next t => presentAll is t
    | .fault r => .fault r
    | .refused r => .refused r

/-- `n` times BRD, the host keeping `DOUT[7:0]` after each (R185 line 14), with the state they end in. -/
def collect : Nat → State → Option (List Byte × State)
  | 0, s => some ([], s)
  | n + 1, s =>
    match presentWord (encode .brd) s with
    | .next t => (collect n t).map fun r => (t.dout.extractLsb' 0 8 :: r.1, r.2)
    | .fault _ => none
    | .refused _ => none

/-- What `RD STATUS` tells the host of a fault: `STATUS.FLT`, bit 7 of the `DOUT` it loads (10_state.md R22, R29), in
the normal and in the faulted state. Presented after line 14, as program P3's word 57 is (log entry 20). -/
def faultRead (s : State) : Bool :=
  match presentWord (encode (.rd 0)) s with
  | .next t => t.dout.getLsbD 7
  | .fault _ => true
  | .refused _ => true

/-- The host's decrypt of a container on an engine in any state (R185, R187, R188): nothing is emitted on
FormatError or CapacityError, for which no command is presented, nor when the `STATUS` read after line 14 shows a
fault (log entry 20). -/
def hostDecrypt (s : State) (f : List Byte) : Except HostError (List Byte) :=
  match parse f with
  | .error e => .error e
  | .ok c =>
    if s.cfg.bufSize < c.payload.length then .error .capacityError
    else
      match presentAll (decryptCommands c.salt c.payload ++ ldarg 0) s with
      | .next t =>
        match collect c.payload.length t with
        | some (out, u) => if faultRead u then .error .engineFault else .ok out
        | none => .error .engineFault
      | .fault _ => .error .engineFault
      | .refused _ => .error .engineFault

end Sys2Proof.Machine
end

