-- ==== Sys2Proof/Safety.lean ====
section
/-! DEFINITION. What counts as a safe run: the invariant of every reachable state (10_state.md R42), the end
of a run and a good run (60_exceptions.md R217), and what the host can see (R210). -/

namespace Sys2Proof.Machine

/-- The table contains each value 0..255 exactly once (45_sbox_init.md R165). -/
def Table.IsPermutation (t : Table) : Prop := ∀ v : Byte, t.toList.count v = 1

/-- Every piece of state at the value the table of rule R44 gives it, in the rule's own numbers. -/
structure State.AtReset (s : State) : Prop where
  arg : s.arg = 0x00000000#32
  dout : s.dout = 0x00000000#32
  cidx : s.cidx = 0x00000000#32
  h : s.h = 0x811C9DC5#32
  dec : s.dec = false
  mkv : s.mkv = false
  dkv : s.dkv = false
  sbv : s.sbv = false
  saltv : s.saltv = 0x00#8
  flt : s.flt = false
  cause : s.cause = 0x00#8
  ecmd : s.ecmd = 0x00000000#32
  blen : s.blen = 0#32
  dklen : s.dklen = 0#32
  mkey : ∀ t : Fin 16, s.mkey[t] = 0x00#8
  salt : ∀ t : Fin 8, s.salt[t] = 0x00#8
  dk : s.dk = []
  sbox0 : ∀ x : Fin 256, s.sbox0[x] = 0x00#8
  buf : ∀ a : Nat, s.bufByte a = 0x00#8

/-- The invariant of rule R42, clause by clause, with R37 (`DK` has exactly `DKLEN` bytes), R30 (the causes)
and the form of the buffer memory (R60). -/
structure State.Inv (s : State) : Prop where
  /-- R42 (a). -/
  blen_le : s.blen.toNat ≤ s.cfg.bufSize
  /-- R42 (b). -/
  dklen_le : s.dklen.toNat ≤ s.cfg.dkMax
  /-- R42 (c). -/
  dklen_of_invalid : s.dkv = false → s.dklen = 0
  /-- R37. -/
  dk_length : s.dk.length = s.dklen.toNat
  /-- R42 (d). -/
  sbox_permutation : s.sbv = true → s.sbox0.IsPermutation
  /-- R42 (e), `MK`. -/
  mkey_of_invalid : s.mkv = false → ∀ t : Fin 16, s.mkey[t] = 0
  /-- R42 (e), `SBOX0`. -/
  sbox_of_invalid : s.sbv = false → ∀ x : Fin 256, s.sbox0[x] = 0
  /-- R42 (e), `SALT`. -/
  salt_of_invalid : ∀ t : Fin 8, s.saltv.getLsbD t.val = false → s.salt[t] = 0
  /-- R42 (f), first half. -/
  flt_iff : s.flt = false ↔ s.cause = 0
  /-- R42 (f), second half. -/
  ecmd_of_normal : s.flt = false → s.ecmd = 0
  /-- R42 (g). -/
  mkey_of_valid : s.mkv = true → ∀ t : Fin 16, s.mkey[t] = rotl8 s.cfg.obf[t] 3 ^^^ 0x5A
  /-- R30. -/
  cause_le : s.cause.toNat ≤ 4
  /-- The canonical form of the buffer memory. -/
  buf_wf : s.buf.wf
  /-- R60: no byte outside `0..BUF_SIZE-1`. -/
  buf_below : Memory.below s.cfg.bufSize s.buf

/-- A state some run from a reset reaches, under some configuration and some command list. -/
inductive Reachable : State → Prop where
  | reset (cfg : Config) (prog : List Word) : Reachable (State.resetWith cfg prog 0)
  | step {s t : State} (hs : Reachable s) (h : step s = .next t) : Reachable t

/-- The run has ended: the command list is exhausted (R217). -/
def State.Ended (s : State) : Prop := s.prog.length ≤ s.k

/-- A run that has ended is good iff no fault is recorded (R217). -/
def State.Good (s : State) : Prop := s.Ended ∧ s.flt = false

/-- Two states differ at most in the key stores and the constants `OBF` and `SECRET`: what rule R210 says
no command copies to where the host can read it. -/
structure State.SameButSecrets (s t : State) : Prop where
  bufSize : s.cfg.bufSize = t.cfg.bufSize
  dkMax : s.cfg.dkMax = t.cfg.dkMax
  prog : s.prog = t.prog
  k : s.k = t.k
  arg : s.arg = t.arg
  dout : s.dout = t.dout
  cidx : s.cidx = t.cidx
  h : s.h = t.h
  dec : s.dec = t.dec
  mkv : s.mkv = t.mkv
  saltv : s.saltv = t.saltv
  dkv : s.dkv = t.dkv
  sbv : s.sbv = t.sbv
  flt : s.flt = t.flt
  cause : s.cause = t.cause
  ecmd : s.ecmd = t.ecmd
  blen : s.blen = t.blen
  dklen : s.dklen = t.dklen
  buf : s.buf = t.buf

end Sys2Proof.Machine
end

