-- ==== Sys2Proof/Certificates/Slice0/Obligations.lean ====
section
/-! DEFINITION. The statements for the provers, one `def Obligations.<Name> : Prop` each. The rules named are
rules of spec/. Where a conclusion writes out a next state, every field it does not name is unchanged: that is the
command's frame. -/

open Sys2Proof Sys2Proof.Machine

/-! ### Reset and state -/

/-- 10_state.md R44 and 70_reset_and_hazards.md R230: the state right after reset, the state after a hardware
reset in any state, and the state after SRESET in any state have every piece of state at its reset value; the
configuration is the same before and after. -/
def Obligations.ResetLeavesEveryPieceAtItsValue : Prop :=
  State.reset.AtReset ∧
  (∀ s : State, s.hardwareReset.AtReset ∧ s.hardwareReset.cfg = s.cfg) ∧
  ∀ s : State, ∃ t, exec .sreset s = .next t ∧ t.AtReset ∧ t.cfg = s.cfg

/-- 40_control_and_data.md R101: SRESET's word; in the normal and in the faulted state it answers the reset state and is
not counted; it equals a hardware reset; it is the only command that leaves the faulted state; afterwards
`RD STATUS` gives 0 and `CIDX = 1`. -/
def Obligations.SresetResetsInBothStatesAndAloneClearsAFault : Prop :=
  encode .sreset = 0x01000000#32 ∧
  ∀ s : State,
    exec .sreset s = .next s.hardwareReset ∧ s.hardwareReset.AtReset ∧ s.hardwareReset.cidx = 0 ∧
    (∀ i t, s.flt = true → exec i s = .next t → t.flt = false → i = .sreset) ∧
    exec (.rd 0) s.hardwareReset = .next { s.hardwareReset with dout := 0x00000000#32, cidx := 1 }

/-! ### Encoding -/

/-- 30_encoding.md R86, R81: every well-formed command, with every value of its fields, is what its word decodes to. -/
def Obligations.DecodeOfEncodeIsTheCommand : Prop :=
  ∀ i : Instr, i.wf = true → decode (encode i) = .ok i

/-- 30_encoding.md R86: a word that decodes to a command is that command's one word, and the command is well formed;
so distinct legal words decode to distinct commands. -/
def Obligations.ALegalWordIsTheOneWordOfItsCommand : Prop :=
  ∀ (w : Word) (i : Instr), decode w = .ok i → i.wf = true ∧ encode i = w

/-- 30_encoding.md R87: the table's columns op, format, match and mask; and a word is the command of a row iff it matches
the row under the row's mask (and, for RD, `sel8 <= 6`). -/
def Obligations.DecodeFollowsTheMatchAndMaskColumns : Prop :=
  (Op.all.map fun o => (o, o.code, o.format, o.tableMatch, o.tableMask)) =
    [(.nop, 0x00#8, .n, 0x00000000#32, 0xFFFFFFFF#32), (.sreset, 0x01, .n, 0x01000000, 0xFFFFFFFF),
     (.arglo, 0x02, .h, 0x02000000, 0xFFFF0000), (.arghi, 0x03, .h, 0x03000000, 0xFFFF0000),
     (.rd, 0x04, .b, 0x04000000, 0xFFFFFF00), (.zero, 0x05, .b, 0x05000000, 0xFFFFFF00),
     (.setblen, 0x10, .n, 0x10000000, 0xFFFFFFFF), (.bwr, 0x11, .b, 0x11000000, 0xFFFFFF00),
     (.brd, 0x12, .n, 0x12000000, 0xFFFFFFFF), (.saltw, 0x13, .s, 0x13000000, 0xFFFFF800),
     (.hinit, 0x20, .n, 0x20000000, 0xFFFFFFFF), (.hbyte, 0x21, .b, 0x21000000, 0xFFFFFF00),
     (.oracle, 0x30, .n, 0x30000000, 0xFFFFFFFF), (.mkrec, 0x40, .n, 0x40000000, 0xFFFFFFFF),
     (.kdf, 0x41, .n, 0x41000000, 0xFFFFFFFF), (.sbinit, 0x50, .n, 0x50000000, 0xFFFFFFFF),
     (.crypt, 0x60, .n, 0x60000000, 0xFFFFFFFF)] ∧
  ∀ (o : Op) (w : Word),
    (∃ i, decode w = .ok i ∧ i.op = o) ↔
      (w &&& o.tableMask = o.tableMatch ∧ (o = .rd → w.toNat % 256 ≤ 6))

/-- 30_encoding.md R81: where the opcode, the operand fields and the reserved field of each format stand, as numbers. -/
def Obligations.OperandsAreReadFromTheirFields : Prop :=
  ∀ (w : Word) (i : Instr), decode w = .ok i →
    i.op.code.toNat = w.toNat / 2 ^ 24 ∧
    (∀ v, i = .arglo v ∨ i = .arghi v → v.toNat = w.toNat % 2 ^ 16) ∧
    (∀ v, i = .rd v ∨ i = .zero v ∨ i = .bwr v ∨ i = .hbyte v → v.toNat = w.toNat % 2 ^ 8) ∧
    (∀ n v, i = .saltw n v → n.toNat = w.toNat / 2 ^ 8 % 2 ^ 3 ∧ v.toNat = w.toNat % 2 ^ 8) ∧
    (i.op.format = .n → w.toNat % 2 ^ 24 = 0) ∧
    (i.op.format = .b → w.toNat / 2 ^ 8 % 2 ^ 16 = 0) ∧
    (i.op.format = .h → w.toNat / 2 ^ 16 % 2 ^ 8 = 0) ∧
    (i.op.format = .s → w.toNat / 2 ^ 11 % 2 ^ 13 = 0)

/-- 30_encoding.md R90 (f), which marks the count as its own derivation: the number of legal words. -/
def Obligations.ThereAreExactly133905LegalWords : Prop :=
  Nat.card { w : Word // ∃ i, decode w = .ok i } = 133905

/-- Words printed in 40_control_and_data.md R102 to R110, 41_hash.md R122, 42_oracle.md R133, 44_kdf.md R153,
45_sbox_init.md R163 and 46_keystream.md R173, one or more of every unit's (MKREC's aside): the commands
they decode to; and four illegal words of 95_test_vectors.md V51. The spec knows one `Illegal` (30_encoding.md R86,
60_exceptions.md R201): the names the last four clauses give it are the model's own choice (log entry 14). -/
def Obligations.SampleWordsDecodeAsTheSpecPrintsThem : Prop :=
  decode 0x02001234 = .ok (.arglo 0x1234) ∧ decode 0x0300A5A5 = .ok (.arghi 0xA5A5) ∧
  decode 0x05000005 = .ok (.zero 0x05) ∧ decode 0x110000AB = .ok (.bwr 0xAB) ∧
  decode 0x1300024C = .ok (.saltw 2 0x4C) ∧ decode 0x21000061 = .ok (.hbyte 0x61) ∧
  decode 0x30000000 = .ok .oracle ∧ decode 0x41000000 = .ok .kdf ∧
  decode 0x50000000 = .ok .sbinit ∧ decode 0x60000000 = .ok .crypt ∧
  decode 0x00000001 = .error .reservedBits ∧ decode 0x07000000 = .error .unassignedOpcode ∧
  decode 0x04000007 = .error .rdSelector ∧ decode 0x13000800 = .error .reservedBits

/-- 20_memory.md R62 (log entry 10): a command list stored in bytes, least significant byte first, decodes word by word as the
words do. -/
def Obligations.StoredBytesDecodeAsTheirWord : Prop :=
  ∀ (w : Word) (rest : List Byte), decodeBytes (bytesOfWord w ++ rest) = (decode w).map fun i => (i, rest)

/-! ### The step -/

/-- 10_state.md R24, 40_control_and_data.md R106, 60_exceptions.md R212: a step presents the next word of the host's list with the
position moved on by one. A word that decodes is executed; an illegal word is cause 1 in the normal state and ignored
in the faulted state; with no word left all state is kept (that last clause is log entry 3). -/
def Obligations.AStepExecutesTheDecodedWord : Prop :=
  ∀ s : State,
    (∀ w i, s.prog[s.k]? = some w → decode w = .ok i → step s = exec i { s with k := s.k + 1 }) ∧
    (∀ w e, s.prog[s.k]? = some w → decode w = .error e → s.flt = false →
      step s = .next { s with k := s.k + 1, flt := true, cause := 1, ecmd := w }) ∧
    (∀ w e, s.prog[s.k]? = some w → decode w = .error e → s.flt = true →
      step s = .next { s with k := s.k + 1 }) ∧
    (s.prog[s.k]? = none → step s = .next s)

/-- 10_state.md R24: the position advances by exactly 1 for every word presented, and no command reads or writes the
position or the list. -/
def Obligations.CommandsNeitherReadNorWriteThePosition : Prop :=
  (∀ s t : State, s.k < s.prog.length → step s = .next t → t.k = s.k + 1 ∧ t.prog = s.prog) ∧
  (∀ (i : Instr) (s t : State) (prog : List Word) (k : Nat), exec i s = .next t →
    t.k = s.k ∧ t.prog = s.prog ∧
    exec i { s with prog := prog, k := k } = .next { t with prog := prog, k := k })

/-- The model's own operation for placing a word (log entry 2): the word placed is the one the next step
presents, and nothing but the host's list is changed. -/
def Obligations.APlacedWordIsPresentedNext : Prop :=
  ∀ (s : State) (w : Word), (s.withFetchWord 32 w.toNat).nextWord = some w ∧
    ∃ prog, s.withFetchWord 32 w.toNat = { s with prog := prog }

/-- 10_state.md R23: the first command after reset has index 0; a command that completes adds 1 modulo 2^32; one that faults
leaves `CIDX`; in the faulted state it never changes, except that SRESET sets it to 0. -/
def Obligations.CidxCountsCompletedCommands : Prop :=
  State.reset.cidx = 0 ∧
  ∀ (w : Word) (s t : State), presentWord w s = .next t →
    (decode w = .ok .sreset → t.cidx = 0) ∧
    (decode w ≠ .ok .sreset → s.flt = true → t.cidx = s.cidx) ∧
    (decode w ≠ .ok .sreset → s.flt = false → t.flt = true → t.cidx = s.cidx) ∧
    (decode w ≠ .ok .sreset → s.flt = false → t.flt = false →
      t.cidx.toNat = (s.cidx.toNat + 1) % 2 ^ 32)

/-! ### Faults -/

/-- 60_exceptions.md R204: when presenting `w` in the normal state raises a fault, `FLT` is 1, `CAUSE` is one of the four
causes, `ECMD` is `w`, and nothing else changes. -/
def Obligations.AFaultRecordsCauseAndWordAndNothingElse : Prop :=
  ∀ (w : Word) (s t : State), s.flt = false → presentWord w s = .next t → t.flt = true →
    t = { s with flt := true, cause := t.cause, ecmd := w } ∧
    (t.cause = 1 ∨ t.cause = 2 ∨ t.cause = 3 ∨ t.cause = 4)

/-- 60_exceptions.md R206: while `FLT = 1`, SRESET resets everything, RD with a legal selector loads `DOUT` and changes
nothing else, every other word changes nothing; `CAUSE` and `ECMD` keep the first fault. -/
def Obligations.TheFaultedStateHearsOnlyResetAndRead : Prop :=
  ∀ s : State, s.flt = true →
    (∀ w, decode w = .ok .sreset → presentWord w s = .next s.hardwareReset ∧ s.hardwareReset.AtReset) ∧
    (∀ w sel8, decode w = .ok (.rd sel8) →
      ∃ v, s.selected sel8 = some v ∧ presentWord w s = .next { s with dout := v }) ∧
    (∀ w, decode w ≠ .ok .sreset → (∀ sel8, decode w ≠ .ok (.rd sel8)) → presentWord w s = .next s) ∧
    (∀ w t, decode w ≠ .ok .sreset → presentWord w s = .next t → t.cause = s.cause ∧ t.ecmd = s.ecmd)

/-- 60_exceptions.md R200: in the normal state, each condition of the table raises its cause with the word recorded
and nothing else changed (`ARG` least of all), and the eleven commands named never fault. -/
def Obligations.EachFaultConditionRaisesItsCause : Prop :=
  ∀ s : State, s.flt = false →
    (∀ w e, decode w = .error e → presentWord w s = .next { s with flt := true, cause := 1, ecmd := w }) ∧
    (s.mkv = false ∨ (s.saltv ≠ 0x00 ∧ s.saltv ≠ 0xFF) →
      exec .kdf s = .next { s with flt := true, cause := 2, ecmd := 0x41000000 }) ∧
    (s.dkv = false → exec .sbinit s = .next { s with flt := true, cause := 2, ecmd := 0x50000000 }) ∧
    (s.sbv = false → exec .crypt s = .next { s with flt := true, cause := 2, ecmd := 0x60000000 }) ∧
    (s.cfg.bufSize ≤ s.arg.toNat →
      (∀ imm8, exec (.bwr imm8) s =
        .next { s with flt := true, cause := 3, ecmd := 0x11000000 ||| imm8.setWidth 32 }) ∧
      exec .brd s = .next { s with flt := true, cause := 3, ecmd := 0x12000000 }) ∧
    (s.cfg.bufSize < s.arg.toNat →
      exec .setblen s = .next { s with flt := true, cause := 4, ecmd := 0x10000000 }) ∧
    (s.mkv = true → s.saltv = 0x00 ∨ s.saltv = 0xFF → s.cfg.dkMax < s.arg.toNat →
      exec .kdf s = .next { s with flt := true, cause := 4, ecmd := 0x41000000 }) ∧
    (∀ i : Instr, i.wf = true →
      i.op ∈ [Op.nop, .sreset, .arglo, .arghi, .rd, .zero, .saltw, .hinit, .hbyte, .oracle, .mkrec] →
      ∃ t, exec i s = .next t ∧ t.flt = false)

/-- 10_state.md R28, 60_exceptions.md R209: from a faulted state, every step that presents no SRESET leaves a faulted state
with the same cause and the same recorded word. -/
def Obligations.OnlySresetClearsAFaultInAStep : Prop :=
  ∀ s t : State, s.flt = true → s.nextWord ≠ some 0x01000000#32 → step s = .next t →
    t.flt = true ∧ t.cause = s.cause ∧ t.ecmd = s.ecmd

/-! ### The invariant -/

/-- 10_state.md R42 at reset: under every configuration and every command list. -/
def Obligations.TheInvariantHoldsAtReset : Prop :=
  State.reset.Inv ∧ ∀ (cfg : Config) (prog : List Word) (k : Nat), (State.resetWith cfg prog k).Inv

/-- 10_state.md R42 (a) to (g), which that rule marks as its own derivation, with R37, R30 and the canonical form of the
buffer memory: every step keeps them. -/
def Obligations.EveryStepKeepsTheInvariant : Prop :=
  ∀ s t : State, s.Inv → step s = .next t → t.Inv

/-- 10_state.md R42: every state a run from reset reaches, under any configuration and command list, satisfies (a) to (g). -/
def Obligations.EveryReachableStateSatisfiesTheInvariant : Prop :=
  ∀ s : State, Reachable s → s.Inv

/-- 60_exceptions.md R217 and 46_keystream.md R173 ("no other fault is possible"): no command is refused, in a state of the invariant every command
and every step answers a next state, and the model's one stop is CRYPT's with `BLEN > BUF_SIZE`, `SBV = 1` and
`FLT = 0` (log entry 4). -/
def Obligations.NoCommandStopsTheMachine : Prop :=
  (∀ (i : Instr) (s : State), s.Inv → ∃ t, exec i s = .next t) ∧
  (∀ s : State, s.Inv → ∃ t, step s = .next t) ∧
  (∀ (i : Instr) (s : State) (r : Refusal), exec i s ≠ .refused r) ∧
  (∀ (i : Instr) (s : State) (r : Fault), exec i s = .fault r ↔
    (i = .crypt ∧ s.flt = false ∧ s.sbv = true ∧ s.cfg.bufSize < s.blen.toNat ∧ r = .bufAddressAbsent))

/-! ### What a command leaves unchanged -/

/-- 10_state.md R20, the column "written by", and 00_scope.md R6: every row of the table is unchanged but by the commands
that write it: `CIDX` by a command that completes and SRESET, `FLT`, `CAUSE` and `ECMD` by a fault and SRESET, `BUF` as a
whole here and byte by byte in `EachBufferByteIsWrittenOnlyByItsWriters`; configuration, command list and position by
none. -/
def Obligations.EachRegisterIsWrittenOnlyByItsWriters : Prop :=
  ∀ (i : Instr) (s t : State), exec i s = .next t →
    (i.op ∉ [Op.arglo, .arghi, .bwr, .brd, .zero, .sreset] → t.arg = s.arg) ∧
    (i.op ∉ [Op.rd, .brd, .zero, .sreset] → t.dout = s.dout) ∧
    (i.op ≠ .sreset → s.flt = true ∨ t.flt = true → t.cidx = s.cidx) ∧
    (i.op ∉ [Op.hinit, .hbyte, .zero, .sreset] → t.h = s.h) ∧
    (i.op ∉ [Op.oracle, .zero, .sreset] → t.dec = s.dec) ∧
    (i.op ∉ [Op.mkrec, .zero, .sreset] → t.mkv = s.mkv ∧ t.mkey = s.mkey) ∧
    (i.op ∉ [Op.saltw, .zero, .sreset] → t.saltv = s.saltv ∧ t.salt = s.salt) ∧
    (i.op ∉ [Op.kdf, .zero, .sreset] → t.dkv = s.dkv ∧ t.dklen = s.dklen ∧ t.dk = s.dk) ∧
    (i.op ∉ [Op.sbinit, .zero, .sreset] → t.sbv = s.sbv ∧ t.sbox0 = s.sbox0) ∧
    (i.op ∉ [Op.setblen, .zero, .sreset] → t.blen = s.blen) ∧
    (i.op ∉ [Op.bwr, .crypt, .zero, .sreset] → t.buf = s.buf) ∧
    (i.op ≠ .sreset → t.flt = false ∨ s.flt = true → t.flt = s.flt ∧ t.cause = s.cause ∧ t.ecmd = s.ecmd) ∧
    (t.cfg = s.cfg ∧ t.prog = s.prog ∧ t.k = s.k)

/-- 10_state.md R20 and 20_memory.md R60, R65: every byte of `BUF` is unchanged but by BWR at the address in `ARG`, CRYPT
below `BLEN`, ZERO with mask bit 6, and SRESET. -/
def Obligations.EachBufferByteIsWrittenOnlyByItsWriters : Prop :=
  ∀ (i : Instr) (s t : State), exec i s = .next t → ∀ a : Nat,
    (i.op ∉ [Op.bwr, .crypt, .zero, .sreset] → t.bufByte a = s.bufByte a) ∧
    (i.op = .bwr → a ≠ s.arg.toNat → t.bufByte a = s.bufByte a) ∧
    (i.op = .crypt → s.blen.toNat ≤ a → t.bufByte a = s.bufByte a) ∧
    (∀ mask8, i = .zero mask8 → mask8.getLsbD 6 = false → t.bufByte a = s.bufByte a)

/-- 60_exceptions.md R210: two engines that differ only in `MK`, `SALT`, `DK`, `SBOX0`, `OBF` and `SECRET` still differ in
nothing else after any command but ORACLE, which may differ in `DEC`, and CRYPT, which may differ in `BUF`; and no
command puts them apart by stopping one alone. -/
def Obligations.KeyMaterialReachesOnlyDecAndTheCryptedBuffer : Prop :=
  ∀ (i : Instr) (s s' : State), s.SameButSecrets s' →
    (∀ t, exec i s = .next t → ∃ t', exec i s' = .next t' ∧
      (i.op ≠ .oracle → i.op ≠ .crypt → t.SameButSecrets t') ∧
      (i.op = .oracle → { t with dec := t'.dec }.SameButSecrets t') ∧
      (i.op = .crypt → { t with buf := t'.buf }.SameButSecrets t'))

/-! ### Control commands -/

/-- 40_control_and_data.md R100: NOP is the all-zero word and only counts. -/
def Obligations.NopOnlyCounts : Prop :=
  encode .nop = 0x00000000#32 ∧ decode 0x00000000 = .ok .nop ∧
  ∀ s : State, s.flt = false → exec .nop s = .next { s with cidx := s.cidx + 1 }

/-- 40_control_and_data.md R102: ARGLO. -/
def Obligations.ArgloLoadsTheLowHalfAndClearsTheHigh : Prop :=
  ∀ imm16 : Half,
    encode (.arglo imm16) = 0x02000000 ||| imm16.setWidth 32 ∧
    decode (0x02000000 ||| imm16.setWidth 32) = .ok (.arglo imm16) ∧
    ∀ s : State, s.flt = false →
      ∃ v : Word, v.toNat = imm16.toNat ∧ exec (.arglo imm16) s = .next { s with arg := v, cidx := s.cidx + 1 }

/-- 40_control_and_data.md R103: ARGHI. -/
def Obligations.ArghiLoadsTheHighHalfAndKeepsTheLow : Prop :=
  ∀ imm16 : Half,
    encode (.arghi imm16) = 0x03000000 ||| imm16.setWidth 32 ∧
    decode (0x03000000 ||| imm16.setWidth 32) = .ok (.arghi imm16) ∧
    ∀ s : State, s.flt = false →
      ∃ v : Word, v.toNat = imm16.toNat * 2 ^ 16 + s.arg.toNat % 2 ^ 16 ∧
        exec (.arghi imm16) s = .next { s with arg := v, cidx := s.cidx + 1 }

/-- 30_encoding.md R88: ARGLO with the low half of `v`, then ARGHI with its high half, leave `v` in `ARG`; ARGLO after
ARGHI clears what ARGHI wrote. -/
def Obligations.ArgloThenArghiAssembleAnOperand : Prop :=
  ∀ (v : Word) (s t u : State), s.flt = false →
    (exec (.arglo (v.extractLsb' 0 16)) s = .next t → exec (.arghi (v.extractLsb' 16 16)) t = .next u →
      u = { s with arg := v, cidx := s.cidx + 2 }) ∧
    (exec (.arghi (v.extractLsb' 16 16)) s = .next t → exec (.arglo (v.extractLsb' 0 16)) t = .next u →
      u.arg.toNat = v.toNat % 2 ^ 16)

/-- 40_control_and_data.md R104: RD. The word; the seven registers; in the faulted state the same load without the count; a
selector above 6 is cause 1; `RD 1` straight after reset gives `0x811C9DC5`. -/
def Obligations.RdLoadsTheSelectedRegister : Prop :=
  (∀ sel8 : Byte, encode (.rd sel8) = 0x04000000 ||| sel8.setWidth 32) ∧
  (∀ s : State,
    (∀ p ∈ [(0#8, s.status), (1, s.h), (2, s.arg), (3, s.blen), (4, s.dklen), (5, s.cidx), (6, s.ecmd)],
      (s.flt = false → exec (.rd p.1) s = .next { s with dout := p.2, cidx := s.cidx + 1 }) ∧
      (s.flt = true → exec (.rd p.1) s = .next { s with dout := p.2 })) ∧
    (∀ sel8 : Byte, 6 < sel8.toNat → s.flt = false →
      exec (.rd sel8) s =
        .next { s with flt := true, cause := 1, ecmd := 0x04000000 ||| sel8.setWidth 32 }) ∧
    exec (.rd 1) s.hardwareReset = .next { s.hardwareReset with dout := 0x811C9DC5#32, cidx := 1 })

/-- 10_state.md R29: what `RD 0` loads is STATUS, a view assembled from the flags, bit by bit; the reserved bits 6:5 and
31:24 read as 0. -/
def Obligations.StatusShowsTheFlagsInTheirBits : Prop :=
  ∀ s : State,
    s.status.getLsbD 0 = s.mkv ∧ s.status.getLsbD 1 = decide (s.saltv = 0xFF) ∧
    s.status.getLsbD 2 = s.dkv ∧ s.status.getLsbD 3 = s.sbv ∧ s.status.getLsbD 4 = s.dec ∧
    s.status.extractLsb' 5 2 = 0 ∧ s.status.getLsbD 7 = s.flt ∧
    s.status.extractLsb' 8 8 = s.cause ∧ s.status.extractLsb' 16 8 = s.saltv ∧
    s.status.extractLsb' 24 8 = 0 ∧
    (s.flt = false → exec (.rd 0) s = .next { s with dout := s.status, cidx := s.cidx + 1 }) ∧
    (s.flt = true → exec (.rd 0) s = .next { s with dout := s.status })

/-- 40_control_and_data.md R105: ZERO. The word; ignored in the faulted state; each mask bit clears what its line names
and no other piece of state changes; `ZERO 0` only counts; in a state of the invariant `ZERO 0xFF` differs from a reset in `CIDX` alone; and
`ZERO MK|DK` takes `STATUS` from `0x0000000D` to `0x00000008`. -/
def Obligations.ZeroClearsExactlyWhatItsMaskSelects : Prop :=
  (∀ mask8 : Byte, encode (.zero mask8) = 0x05000000 ||| mask8.setWidth 32) ∧
  (∀ (mask8 : Byte) (s : State), s.flt = true → exec (.zero mask8) s = .next s) ∧
  ∀ s : State, s.flt = false →
    (∀ mask8 : Byte, ∃ t, exec (.zero mask8) s = .next t ∧
      t.mkv = (s.mkv && !mask8.getLsbD 0) ∧
      (∀ n : Fin 16, t.mkey[n] = if mask8.getLsbD 0 then 0 else s.mkey[n]) ∧
      t.saltv = (if mask8.getLsbD 1 then 0 else s.saltv) ∧
      (∀ n : Fin 8, t.salt[n] = if mask8.getLsbD 1 then 0 else s.salt[n]) ∧
      t.dkv = (s.dkv && !mask8.getLsbD 2) ∧
      t.dklen = (if mask8.getLsbD 2 then 0 else s.dklen) ∧
      t.dk = (if mask8.getLsbD 2 then [] else s.dk) ∧
      t.sbv = (s.sbv && !mask8.getLsbD 3) ∧
      (∀ x : Fin 256, t.sbox0[x] = if mask8.getLsbD 3 then 0 else s.sbox0[x]) ∧
      t.h = (if mask8.getLsbD 4 then 0x811C9DC5 else s.h) ∧
      t.dec = (s.dec && !mask8.getLsbD 5) ∧
      (∀ a : Nat, t.bufByte a = if mask8.getLsbD 6 then 0 else s.bufByte a) ∧
      t.blen = (if mask8.getLsbD 6 then 0 else s.blen) ∧
      t.arg = (if mask8.getLsbD 7 then 0 else s.arg) ∧
      t.dout = (if mask8.getLsbD 7 then 0 else s.dout) ∧
      t.cidx = s.cidx + 1 ∧ t.flt = false ∧ t.cause = s.cause ∧ t.ecmd = s.ecmd ∧
      t.cfg = s.cfg ∧ t.prog = s.prog ∧ t.k = s.k) ∧
    exec (.zero 0) s = .next { s with cidx := s.cidx + 1 } ∧
    (s.Inv → exec (.zero 0xFF) s = .next { s.hardwareReset with cidx := s.cidx + 1 }) ∧
    (s.status = 0x0000000D#32 → ∀ t, exec (.zero 0x05) s = .next t → t.status = 0x00000008#32)

/-! ### Buffer and salt commands -/

/-- 40_control_and_data.md R107: SETBLEN. -/
def Obligations.SetblenTakesAnyLengthUpToTheBufferSize : Prop :=
  encode .setblen = 0x10000000#32 ∧
  ∀ s : State, s.flt = false →
    (s.arg.toNat ≤ s.cfg.bufSize → exec .setblen s = .next { s with blen := s.arg, cidx := s.cidx + 1 }) ∧
    (s.cfg.bufSize < s.arg.toNat →
      exec .setblen s = .next { s with flt := true, cause := 4, ecmd := 0x10000000 })

/-- 40_control_and_data.md R108: BWR, in a state whose buffer memory has its canonical form. The byte at the address in `ARG`
becomes the operand, no other byte changes, `ARG` moves on modulo 2^32; outside the memory cause 3 and nothing else. -/
def Obligations.BwrWritesOneByteAndMovesOn : Prop :=
  (∀ imm8 : Byte, encode (.bwr imm8) = 0x11000000 ||| imm8.setWidth 32) ∧
  ∀ (imm8 : Byte) (s : State), s.flt = false → s.buf.wf →
    (s.arg.toNat < s.cfg.bufSize → ∃ t, exec (.bwr imm8) s = .next t ∧
      t.bufByte s.arg.toNat = imm8 ∧ (∀ a, a ≠ s.arg.toNat → t.bufByte a = s.bufByte a) ∧
      t.arg.toNat = (s.arg.toNat + 1) % 2 ^ 32 ∧
      t = { s with buf := t.buf, arg := t.arg, cidx := s.cidx + 1 }) ∧
    (s.cfg.bufSize ≤ s.arg.toNat →
      exec (.bwr imm8) s =
        .next { s with flt := true, cause := 3, ecmd := 0x11000000 ||| imm8.setWidth 32 })

/-- 40_control_and_data.md R109: BRD. `DOUT` is the byte zero-extended, `ARG` moves on modulo 2^32, memory is not changed;
outside the memory cause 3 and nothing else; ignored in the faulted state; a byte never written reads its reset value
0x00: after a reset BRD loads 0 from every address below `BUF_SIZE`, and it loads 0 in any normal state where the byte
at `ARG` still is 0 (`EachBufferByteIsWrittenOnlyByItsWriters` says which commands change it). -/
def Obligations.BrdReadsOneByteAndMovesOn : Prop :=
  encode .brd = 0x12000000#32 ∧
  (∀ s : State, s.flt = true → exec .brd s = .next s) ∧
  (∀ (s : State) (a : Word), a.toNat < s.cfg.bufSize →
    exec .brd { s.hardwareReset with arg := a } =
      .next { s.hardwareReset with arg := a + 1, dout := 0x00000000, cidx := 1 }) ∧
  (∀ s : State, s.flt = false → s.arg.toNat < s.cfg.bufSize → s.bufByte s.arg.toNat = 0x00 →
    ∃ t, exec .brd s = .next t ∧ t.dout = 0x00000000) ∧
  ∀ s : State, s.flt = false →
    (s.arg.toNat < s.cfg.bufSize → ∃ v a : Word, v.toNat = (s.bufByte s.arg.toNat).toNat ∧
      a.toNat = (s.arg.toNat + 1) % 2 ^ 32 ∧
      exec .brd s = .next { s with dout := v, arg := a, cidx := s.cidx + 1 }) ∧
    (s.cfg.bufSize ≤ s.arg.toNat →
      exec .brd s = .next { s with flt := true, cause := 3, ecmd := 0x12000000 })

/-- 40_control_and_data.md R110: SALTW. The indexed byte and its valid bit, no other byte and no other bit, with SALTP when
all eight are valid; a partial salt makes KDF fault; only ZERO with mask bit 1 and SRESET make the salt absent again;
straight after reset `SALTW 2, 0x4C` gives `STATUS = 0x00040000`. -/
def Obligations.SaltwWritesOneSaltByteAndItsValidBit : Prop :=
  (∀ (idx3 : BitVec 3) (imm8 : Byte),
    encode (.saltw idx3 imm8) = 0x13000000#32 ||| idx3.setWidth 32 <<< 8 ||| imm8.setWidth 32) ∧
  encode (.saltw 2 0x4C) = 0x1300024C#32 ∧
  (∀ s : State, s.flt = false → ∀ (idx3 : BitVec 3) (imm8 : Byte),
    ∃ t, exec (.saltw idx3 imm8) s = .next t ∧
      (∀ n : Fin 8, t.salt[n] = if n.val = idx3.toNat then imm8 else s.salt[n]) ∧
      (∀ n : Nat, n < 8 → t.saltv.getLsbD n = (decide (n = idx3.toNat) || s.saltv.getLsbD n)) ∧
      t.status.getLsbD 1 = decide (∀ n : Nat, n < 8 → t.saltv.getLsbD n = true) ∧
      t = { s with salt := t.salt, saltv := t.saltv, cidx := s.cidx + 1 }) ∧
  (∀ s : State, s.flt = false → s.saltv ≠ 0x00 → s.saltv ≠ 0xFF →
    exec .kdf s = .next { s with flt := true, cause := 2, ecmd := 0x41000000 }) ∧
  (∀ (i : Instr) (s t : State), exec i s = .next t → s.saltv ≠ 0x00 → t.saltv = 0x00 →
    i = .sreset ∨ ∃ mask8, i = .zero mask8 ∧ mask8.getLsbD 1 = true) ∧
  ∀ s : State, ∃ u, exec (.saltw 2 0x4C) s.hardwareReset = .next u ∧ u.status = 0x00040000#32

/-! ### The hash unit -/

/-- 41_hash.md R120: the byte step as numbers, what its two halves hold, and the fold over a message. -/
def Obligations.HashFoldsItsByteStepOverTheMessage : Prop :=
  (∀ (h : Word) (b : Byte), ∃ y : Word,
    y.toNat = ((h ^^^ b.setWidth 32).toNat * 0x01000193) % 2 ^ 32 ∧
    hstep h b = y ^^^ (y >>> 16) ∧
    (hstep h b).extractLsb' 16 16 = y.extractLsb' 16 16 ∧
    (hstep h b).extractLsb' 0 16 = y.extractLsb' 0 16 ^^^ y.extractLsb' 16 16) ∧
  nlHash [] = 0x811C9DC5 ∧
  ∀ (m : List Byte) (b : Byte), nlHash (m ++ [b]) = hstep (nlHash m) b

/-- 41_hash.md R121: HINIT; and `H` has the value already after a reset. -/
def Obligations.HinitStartsAHash : Prop :=
  encode .hinit = 0x20000000#32 ∧ (∀ s : State, s.hardwareReset.h = 0x811C9DC5) ∧
  ∀ s : State, s.flt = false →
    exec .hinit s = .next { s with h := 0x811C9DC5, cidx := s.cidx + 1 }

/-- 41_hash.md R122: HBYTE, with the rule's example. -/
def Obligations.HbyteFoldsOneByteIn : Prop :=
  (∀ imm8 : Byte, encode (.hbyte imm8) = 0x21000000 ||| imm8.setWidth 32) ∧
  (∀ (imm8 : Byte) (s : State), s.flt = false →
    exec (.hbyte imm8) s = .next { s with h := hstep s.h imm8, cidx := s.cidx + 1 }) ∧
  (∀ (m : List Byte) (imm8 : Byte) (s : State), s.flt = false → s.h = nlHash m →
    ∃ t, exec (.hbyte imm8) s = .next t ∧ t.h = nlHash (m ++ [imm8])) ∧
  hstep 0x811C9DC5 0x61 = 0xE40CCD20

/-! ### The oracle unit -/

/-- 42_oracle.md R133: ORACLE writes only `DEC`, the accumulator of `SECRET` and the seed in `ARG` being a multiple of 3; with the
rule's example. -/
def Obligations.OracleLatchesItsDecision : Prop :=
  encode .oracle = 0x30000000#32 ∧
  (∀ s : State, s.flt = false →
    exec .oracle s =
      .next { s with dec := decide (3 ∣ (oracleAcc s.cfg.secret s.arg).toNat), cidx := s.cidx + 1 }) ∧
  oracleAcc [0x48, 0x6F, 0x6C, 0x79] 0 = 0xB4F15465 ∧
  ∀ s : State, s.flt = false → s.cfg.secret = [0x48, 0x6F, 0x6C, 0x79] → s.arg = 0 →
    ∃ t, exec .oracle s = .next t ∧ t.dec = true

/-- 42_oracle.md R130: the accumulator starts at the seed xor 0xA5A5A5A5, the walk visits exactly the multiples of 4 below
the table's length, in order, `ceil(L / 4)` of them, each visit rotates by `i mod 32` and then folds by 13, and the
decision is that the final accumulator is 0 modulo 3. -/
def Obligations.TheOracleWalksTheTableInStridesOfFour : Prop :=
  (∀ (t : List Byte) (seed : Word),
    oracleOf t seed = decide ((oracleAcc t seed).toNat % 3 = 0) ∧
    oracleAcc t seed = (strideIndices t.length).foldl (oracleStride t) (seed ^^^ 0xA5A5A5A5)) ∧
  (∀ len : Nat, strideIndices len = (List.range len).filter (fun i => i % 4 = 0) ∧
    (strideIndices len).length = (len + 3) / 4) ∧
  (∀ (t : List Byte) (acc : Word) (i : Nat),
    oracleStride t acc i =
      (acc ^^^ oracleWord t i).rotateLeft (i % 32) ^^^
        ((acc ^^^ oracleWord t i).rotateLeft (i % 32)).rotateLeft 13)

/-- 42_oracle.md R131: the word of a stride, big-endian from four bytes taken cyclically, with the rule's two short tables. -/
def Obligations.TheOracleWordIsBigEndianAndCyclic : Prop :=
  (∀ (t : List Byte) (i : Nat), 1 ≤ t.length →
    ∃ a b c d : Byte, t[(i + 0) % t.length]? = some a ∧ t[(i + 1) % t.length]? = some b ∧
      t[(i + 2) % t.length]? = some c ∧ t[(i + 3) % t.length]? = some d ∧
      (oracleWord t i).toNat = a.toNat * 2 ^ 24 + b.toNat * 2 ^ 16 + c.toNat * 2 ^ 8 + d.toNat) ∧
  (∀ a b c : Byte, oracleWord [a, b, c] 0 = a ++ b ++ c ++ a) ∧
  ∀ a : Byte, oracleWord [a] 0 = a ++ a ++ a ++ a

/-- 42_oracle.md R132 (b), (d), which mark both as their own derivations: a seed and its complement get the same decision from a non-empty table; the empty table gives
the whitened seed modulo 3. -/
def Obligations.TheOracleAnswersASeedAndItsComplementAlike : Prop :=
  (∀ (t : List Byte) (seed : Word), 1 ≤ t.length → oracleOf t seed = oracleOf t (seed ^^^ 0xFFFFFFFF)) ∧
  ∀ seed : Word, oracleOf [] seed = decide ((seed ^^^ 0xA5A5A5A5).toNat % 3 = 0)

/-! ### The key units -/

/-- 43_master_key.md R140, R141: Reconstruct on every byte; MKREC, with the rule's examples; and `MK` reaches the host
through no command: whatever stands in it, the same command leaves the same `DOUT`. -/
def Obligations.MkrecReconstructsTheMasterKey : Prop :=
  encode .mkrec = 0x40000000#32 ∧
  (∀ s : State, s.flt = false → ∃ t, exec .mkrec s = .next t ∧
    (∀ n : Fin 16, t.mkey[n] = (s.cfg.obf[n]).rotateLeft 3 ^^^ 0x5A) ∧
    t = { s with mkey := t.mkey, mkv := true, cidx := s.cidx + 1 }) ∧
  (∀ e : Byte, reconstruct e = e.rotateLeft 3 ^^^ 0x5A) ∧ reconstruct 0x4B = 0x00 ∧ reconstruct 0x01 = 0x52 ∧
  ∀ (i : Instr) (s t : State) (mkey : Vector Byte 16), exec i s = .next t →
    ∃ t', exec i { s with mkey := mkey } = .next t' ∧ t'.dout = t.dout

/-- 43_master_key.md R143, which marks the second identity as its own derivation: the two byte functions are inverse to
each other, with the source's vector. -/
def Obligations.ReconstructAndObfuscateAreInverse : Prop :=
  (∀ b : Byte, reconstruct (obfuscate b) = b) ∧ (∀ e : Byte, obfuscate (reconstruct e) = e) ∧
  obfuscate 0x00 = 0x4B ∧ reconstruct 0x4B = 0x00

/-- 44_kdf.md R150: the length, and every byte with and without a salt; with R151's empty output for length 0 and
period of 256. -/
def Obligations.KdfOutputHashesEachPositionOnItsOwn : Prop :=
  ∀ (mk : List Byte) (n : Nat),
    (∀ salt, (kdfn mk salt n).length = n) ∧
    (∀ salt, salt.length = 8 → ∀ p, p < n → (kdfn mk (some salt) n)[p]? =
      some ((nlHash (mk ++ salt ++ [BitVec.ofNat 8 p])).setWidth 8)) ∧
    (∀ p, p < n → (kdfn mk none n)[p]? = some ((nlHash (mk ++ [BitVec.ofNat 8 p])).setWidth 8)) ∧
    (∀ salt, kdfn mk salt 0 = []) ∧
    (∀ salt p, p + 256 < n → (kdfn mk salt n)[p + 256]? = (kdfn mk salt n)[p]?)

/-- 44_kdf.md R151, which marks it as its own derivation: the first `n` bytes of a longer output are the output of
length `n`. -/
def Obligations.AShorterDerivedKeyIsAPrefixOfALonger : Prop :=
  ∀ (mk : List Byte) (salt : Option (List Byte)) (n m : Nat), n ≤ m →
    (kdfn mk salt m).take n = kdfn mk salt n

/-- 44_kdf.md R153: KDF. What it writes when the salt is present and when it is absent; its faults in the rule's order, which change no
key object; and the rule's example. -/
def Obligations.KdfDerivesTheKeyOrFaultsInOrder : Prop :=
  encode .kdf = 0x41000000#32 ∧
  (∀ s : State, s.flt = false →
    (s.mkv = true → s.saltv = 0xFF → s.arg.toNat ≤ s.cfg.dkMax → exec .kdf s =
      .next { s with dk := kdfn s.mkey.toList (some s.salt.toList) s.arg.toNat, dklen := s.arg, dkv := true,
                     cidx := s.cidx + 1 }) ∧
    (s.mkv = true → s.saltv = 0x00 → s.arg.toNat ≤ s.cfg.dkMax → exec .kdf s =
      .next { s with dk := kdfn s.mkey.toList none s.arg.toNat, dklen := s.arg, dkv := true,
                     cidx := s.cidx + 1 }) ∧
    (s.mkv = false → exec .kdf s = .next { s with flt := true, cause := 2, ecmd := 0x41000000 }) ∧
    (s.mkv = true → s.saltv ≠ 0x00 → s.saltv ≠ 0xFF →
      exec .kdf s = .next { s with flt := true, cause := 2, ecmd := 0x41000000 }) ∧
    (s.mkv = true → s.saltv = 0x00 ∨ s.saltv = 0xFF → s.cfg.dkMax < s.arg.toNat →
      exec .kdf s = .next { s with flt := true, cause := 4, ecmd := 0x41000000 })) ∧
  nlHash [0x5A, 0x52, 0x4A, 0x42, 0x7A, 0x72, 0x6A, 0x62, 0x1A, 0x12, 0x0A, 0x02, 0x3A, 0x32, 0x2A, 0x22,
    0x53, 0x41, 0x4C, 0x54, 0x30, 0x30, 0x30, 0x31, 0x00] = 0x1E34409B ∧
  kdfn [0x5A, 0x52, 0x4A, 0x42, 0x7A, 0x72, 0x6A, 0x62, 0x1A, 0x12, 0x0A, 0x02, 0x3A, 0x32, 0x2A, 0x22]
    (some [0x53, 0x41, 0x4C, 0x54, 0x30, 0x30, 0x30, 0x31]) 1 = [0x9B]

/-! ### The S-box unit -/

/-- 45_sbox_init.md R160, R161: 256 iterations, in order, from the identity table and `j = 0`; and one iteration, both
arms: the new index as an exact sum reduced modulo 256, from `S[i]` before the swap;
the swap partner `i`, or `(i + 1) mod 256` in the false arm; and every entry of the table after it. -/
def Obligations.TheSboxIsBuiltBySwapsWithTheKeyedIndex : Prop :=
  (∀ (dk : List Byte) (d : Bool), sboxInit dk d = (sboxRun dk d 256).1 ∧ (sboxRun dk d 0).2 = 0 ∧
    (∀ x : Byte, (sboxRun dk d 0).1.get x = x) ∧
    ∀ n, sboxRun dk d (n + 1) = sboxStep dk d (sboxRun dk d n) n) ∧
  ∀ (dk : List Byte) (d : Bool) (t : Table) (j i : Byte),
    let add := if d then i.toNat * i.toNat / 8 % 256 else i.toNat * 7 % 256
    let key := if dk = [] then 0 else (dk.getD (i.toNat % dk.length) 0).toNat
    let partner := if d then i else i + 1
    ∃ (t' : Table) (j' : Byte), sboxStep dk d (t, j) i.toNat = (t', j') ∧
      j'.toNat = (j.toNat + (t.get i).toNat + key + add) % 256 ∧
      ∀ x : Byte, t'.get x = if x = partner then t.get j' else if x = j' then t.get partner else t.get x

/-- 45_sbox_init.md R165: the initial table is a permutation for every DerivedKey and both decisions. -/
def Obligations.TheInitialSboxIsAPermutation : Prop :=
  ∀ (dk : List Byte) (d : Bool) (v : Byte), (sboxInit dk d).toList.count v = 1

/-- 45_sbox_init.md R164, which marks it as its own derivation: only the first 256 bytes of a DerivedKey matter, and the key `00` acts as the empty key. -/
def Obligations.OnlyTheFirst256KeyBytesMatter : Prop :=
  (∀ (dk dk' : List Byte) (d : Bool), 256 ≤ dk.length → 256 ≤ dk'.length → dk.take 256 = dk'.take 256 →
    sboxInit dk d = sboxInit dk' d) ∧
  (∀ (dk : List Byte) (d : Bool), 256 ≤ dk.length → sboxInit (dk.take 256) d = sboxInit dk d) ∧
  ∀ d : Bool, sboxInit [0x00] d = sboxInit [] d

/-- 45_sbox_init.md R163: SBINIT takes its decision at seed `0x00001234`, writes `SBOX0` and `SBV` and not `DEC`; cause 2
without a DerivedKey; an empty DerivedKey is legal; with the rule's example. -/
def Obligations.SbinitBuildsTheSboxFromTheKey : Prop :=
  encode .sbinit = 0x50000000#32 ∧
  (∀ s : State, s.flt = false →
    (s.dkv = true → exec .sbinit s =
      .next { s with sbox0 := sboxInit s.dk (oracleOf s.cfg.secret 0x00001234), sbv := true,
                     cidx := s.cidx + 1 }) ∧
    (s.dkv = false → exec .sbinit s = .next { s with flt := true, cause := 2, ecmd := 0x50000000 })) ∧
  (sboxRun [] true 4).1.toList.take 8 = [0, 1, 3, 6, 4, 5, 2, 7]

/-! ### The keystream unit -/

/-- 46_keystream.md R173: CRYPT, in a state with the buffer's canonical form and `BLEN <= BUF_SIZE` (R42 (a)): the first `BLEN` bytes
become `CryptBuffer` of themselves, no other byte and no other piece of state changes; cause 2 without an S-box, before any byte is
touched; with the rule's example, which needs of the table only the entries the rule names. -/
def Obligations.CryptTransformsTheActiveBuffer : Prop :=
  encode .crypt = 0x60000000#32 ∧
  (∀ s : State, s.flt = false → s.buf.wf → s.blen.toNat ≤ s.cfg.bufSize →
    (s.sbv = true → ∃ t, exec .crypt s = .next t ∧
      (List.range s.blen.toNat).map t.bufByte =
        cryptBuffer ((List.range s.blen.toNat).map s.bufByte) s.sbox0 s.cfg.secret ∧
      (∀ a, s.blen.toNat ≤ a → t.bufByte a = s.bufByte a) ∧
      t = { s with buf := t.buf, cidx := s.cidx + 1 } ∧
      (s.blen = 0 → t = { s with cidx := s.cidx + 1 })) ∧
    (s.sbv = false → exec .crypt s = .next { s with flt := true, cause := 2, ecmd := 0x60000000 })) ∧
  ∀ (s0 : Table) (t : List Byte), s0.get 0x01 = 0x08 → s0.get 0x08 = 0x45 → s0.get 0x4D = 0x80 →
    cryptBuffer [0x08] s0 t = [0x48]

/-- 46_keystream.md R170, R172: CryptBuffer starts from the table given, `i = 0`, `j = 0`, `pos = 0`, and Keystream is
CryptBuffer of zero bytes; and one position: the new indices as exact sums reduced modulo 256, `j` from the entry before
the swap; every entry of the table after the swap; and the output byte, the entry at the sum of the two swapped entries
modulo 256, rotated right on 8 bits by the sum of the new indices modulo 8. -/
def Obligations.EachPositionSwapsOnceAndXorsItsOutputByte : Prop :=
  (∀ (b : List Byte) (s0 : Table) (t : List Byte), cryptBuffer b s0 t = cryptFrom t b s0 0 0 0) ∧
  (∀ (n : Nat) (s0 : Table) (t : List Byte), keystream n s0 t = cryptBuffer (List.replicate n 0x00) s0 t) ∧
  (∀ (t : List Byte) (w : Table) (i j : Byte) (pos : Nat), cryptFrom t [] w i j pos = []) ∧
  ∀ (t : List Byte) (b : Byte) (bs : List Byte) (w : Table) (i j : Byte) (pos : Nat),
    ∃ (i' j' at' : Byte) (w' : Table),
      i'.toNat = (i.toNat + 1) % 256 ∧
      j'.toNat = (j.toNat + (w.get i').toNat) % 256 ∧
      (∀ x : Byte, w'.get x = if x = i' then w.get j' else if x = j' then w.get i' else w.get x) ∧
      at'.toNat = ((w'.get i').toNat + (w'.get j').toNat) % 256 ∧
      cryptFrom t (b :: bs) w i j pos =
        (b ^^^ (w'.get at').rotateRight ((i'.toNat + j'.toNat) % 8)) :: cryptFrom t bs w' i' j' (pos + 1)

/-- 46_keystream.md R174 (it marks the last clause as its own derivation): the keystream depends on position and table
only, so `CryptBuffer` is XOR with it, is its own inverse, and
the keystream of a longer buffer extends that of a shorter one. -/
def Obligations.CryptBufferIsXorWithAKeystream : Prop :=
  ∀ (s0 : Table) (t : List Byte),
    (∀ b : List Byte, (cryptBuffer b s0 t).length = b.length ∧
      cryptBuffer b s0 t = List.zipWith (· ^^^ ·) b (keystream b.length s0 t)) ∧
    (∀ b : List Byte, cryptBuffer (cryptBuffer b s0 t) s0 t = b) ∧
    ∀ n m : Nat, n ≤ m → (keystream m s0 t).take n = keystream n s0 t

/-- 46_keystream.md R171: the result of `CryptBuffer` does not depend on the decisions, hence not on the SecretTable. -/
def Obligations.CryptBufferDoesNotDependOnTheSecretTable : Prop :=
  ∀ (b : List Byte) (s0 : Table) (t t' : List Byte), cryptBuffer b s0 t = cryptBuffer b s0 t'

/-- 46_keystream.md R175, R176: a permutation stays one after the swap of any position, and CRYPT leaves `SBOX0` as it was. -/
def Obligations.TheWorkingTableStaysAPermutation : Prop :=
  (∀ (t : List Byte) (pos : Nat) (w : Table) (i j : Byte), w.IsPermutation →
    (keystreamSwap t pos w i j).IsPermutation) ∧
  ∀ s t : State, exec .crypt s = .next t → t.sbox0 = s.sbox0

/-- 46_keystream.md R173, R174: a second CRYPT with the same table and length restores the whole buffer memory. -/
def Obligations.ASecondCryptRestoresTheBuffer : Prop :=
  ∀ s t u : State, s.flt = false → s.sbv = true → s.buf.wf → exec .crypt s = .next t → exec .crypt t = .next u →
    u = { s with cidx := s.cidx + 2 }

/-! ### The host's procedure and several engines -/

/-- 47_container_host.md R180, R182, and R183, which marks what is not checked as its own derivation: a container laid out as R180 says parses to its fields, whatever its version and
reserved bytes and whatever bytes follow the payload; a list shorter than 20 bytes, with another magic, or with fewer bytes than the
declared payload is a FormatError. -/
def Obligations.ParseAcceptsTheLayoutAndRejectsTheThreeErrors : Prop :=
  (∀ (c : Container) (extra : List Byte), c.payload.length < 2 ^ 32 → parse (c.layout ++ extra) = .ok c) ∧
  (∀ f : List Byte, f.length < 20 → parse f = .error .formatError) ∧
  (∀ f : List Byte, f.take 4 ≠ [0x43, 0x52, 0x34, 0x46] → parse f = .error .formatError) ∧
  (∀ f : List Byte, f.length - 20 < payloadLength f → parse f = .error .formatError) ∧
  (∀ (f : List Byte) (e : HostError), parse f = .error e → e = .formatError)

/-- 47_container_host.md R184, R187, R188, and R185, which marks the equality as its own derivation (the list with its
optional first line, log entry 16; `STATUS` read after its last, log entry 20): on an engine in any state, the host's procedure emits exactly what `Decrypt` gives
when the payload fits the buffer, and refuses it otherwise; a malformed container is a FormatError either way. -/
def Obligations.TheHostProcedureComputesDecrypt : Prop :=
  ∀ (s : State) (f : List Byte),
    (∀ c, parse f = .ok c → c.payload.length ≤ s.cfg.bufSize → hostDecrypt s f = decrypt s.cfg f) ∧
    (∀ c, parse f = .ok c → s.cfg.bufSize < c.payload.length → hostDecrypt s f = .error .capacityError) ∧
    (∀ e, parse f = .error e → hostDecrypt s f = .error .formatError)

/-- 60_exceptions.md R213 (the model's product of engines, log entry 17): a step of one engine is that engine's own step and leaves every other engine its whole state. -/
def Obligations.EnginesAreIndependent : Prop :=
  ∀ (n : Nat) (engines after : List State) (s : State), engines[n]? = some s → stepEngine n engines = .next after →
    (∃ t, step s = .next t ∧ after[n]? = some t) ∧
    ∀ m, m ≠ n → after[m]? = engines[m]?
end

