-- ==== Sys2Proof/Laws/Decode.lean ====
section
/-! SUPPORT. The fields of an encoded word, format by format (30_encoding.md R81), and the opcode table as a
map in both directions (R87). -/

namespace Sys2Proof

@[simp] theorem Op.ofCode_code (o : Op) : Op.ofCode o.code = some o := by cases o <;> rfl

theorem Op.code_of_ofCode {b : Byte} {o : Op} (h : Op.ofCode b = some o) : o.code = b := by
  simpa using List.find?_some h

theorem Op.mem_all (o : Op) : o ∈ Op.all := by cases o <;> decide

section formats

variable (c imm8 : Byte) (imm16 : Half) (idx3 : BitVec 3)

/-- A word cut at bit `n` of its right part keeps the field in its left part. -/
theorem extract_append_left {m n : Nat} (a : BitVec m) (b : BitVec n) (lo len : Nat) (h : n ≤ lo) :
    (a ++ b).extractLsb' lo len = a.extractLsb' (lo - n) len := by
  ext i hi
  simp [BitVec.getElem_extractLsb', BitVec.getLsbD_append, show ¬lo + i < n by omega,
    show lo + i - n = lo - n + i by omega]

/-- A field inside the right part of a word. -/
theorem extract_append_right {m n : Nat} (a : BitVec m) (b : BitVec n) (lo len : Nat) (h : lo + len ≤ n) :
    (a ++ b).extractLsb' lo len = b.extractLsb' lo len := by
  ext i hi
  simp [BitVec.getElem_extractLsb', BitVec.getLsbD_append, show lo + i < n by omega]

theorem extract_all {n : Nat} (a : BitVec n) : a.extractLsb' 0 n = a := by
  ext i hi
  simp

theorem opField_n : opField (c ++ 0#24 : Word) = c := by
  unfold opField
  rw [extract_append_left c 0#24 24 8 (by omega)]
  exact extract_all c

theorem opField_b : opField (c ++ 0#16 ++ imm8 : Word) = c := by
  unfold opField
  rw [extract_append_left (c ++ 0#16) imm8 24 8 (by omega), extract_append_left c 0#16 _ 8 (by omega)]
  exact extract_all c

theorem opField_h : opField (c ++ 0#8 ++ imm16 : Word) = c := by
  unfold opField
  rw [extract_append_left (c ++ 0#8) imm16 24 8 (by omega), extract_append_left c 0#8 _ 8 (by omega)]
  exact extract_all c

theorem opField_s : opField (c ++ 0#13 ++ idx3 ++ imm8 : Word) = c := by
  unfold opField
  rw [extract_append_left (c ++ 0#13 ++ idx3) imm8 24 8 (by omega),
    extract_append_left (c ++ 0#13) idx3 _ 8 (by omega), extract_append_left c 0#13 _ 8 (by omega)]
  exact extract_all c

theorem byteField_b : byteField (c ++ 0#16 ++ imm8 : Word) = imm8 := by
  unfold byteField
  rw [extract_append_right (c ++ 0#16) imm8 0 8 (by omega)]
  exact extract_all imm8

theorem byteField_s : byteField (c ++ 0#13 ++ idx3 ++ imm8 : Word) = imm8 := by
  unfold byteField
  rw [extract_append_right (c ++ 0#13 ++ idx3) imm8 0 8 (by omega)]
  exact extract_all imm8

theorem halfField_h : halfField (c ++ 0#8 ++ imm16 : Word) = imm16 := by
  unfold halfField
  rw [extract_append_right (c ++ 0#8) imm16 0 16 (by omega)]
  exact extract_all imm16

theorem idxField_s : idxField (c ++ 0#13 ++ idx3 ++ imm8 : Word) = idx3 := by
  unfold idxField
  rw [extract_append_left (c ++ 0#13 ++ idx3) imm8 8 3 (by omega),
    extract_append_right (c ++ 0#13) idx3 _ 3 (by omega)]
  exact extract_all idx3

theorem reservedZero_n : reservedZero .n (c ++ 0#24 : Word) = true := by
  show ((c ++ 0#24).extractLsb' 0 24 == 0#24) = true
  rw [extract_append_right c 0#24 0 24 (by omega), extract_all]
  rfl

theorem reservedZero_b : reservedZero .b (c ++ 0#16 ++ imm8 : Word) = true := by
  show ((c ++ 0#16 ++ imm8).extractLsb' 8 16 == 0#16) = true
  rw [extract_append_left (c ++ 0#16) imm8 8 16 (by omega), extract_append_right c 0#16 _ 16 (by omega),
    extract_all]
  rfl

theorem reservedZero_h : reservedZero .h (c ++ 0#8 ++ imm16 : Word) = true := by
  show ((c ++ 0#8 ++ imm16).extractLsb' 16 8 == 0#8) = true
  rw [extract_append_left (c ++ 0#8) imm16 16 8 (by omega), extract_append_right c 0#8 _ 8 (by omega),
    extract_all]
  rfl

theorem reservedZero_s : reservedZero .s (c ++ 0#13 ++ idx3 ++ imm8 : Word) = true := by
  show ((c ++ 0#13 ++ idx3 ++ imm8).extractLsb' 11 13 == 0#13) = true
  rw [extract_append_left (c ++ 0#13 ++ idx3) imm8 11 13 (by omega),
    extract_append_left (c ++ 0#13) idx3 _ 13 (by omega), extract_append_right c 0#13 _ 13 (by omega),
    extract_all]
  rfl

end formats

/-- The opcode field of an encoded command. -/
theorem opField_encode : (i : Instr) → opField (encode i) = i.op.code
  | .nop => opField_n (Op.code .nop)
  | .sreset => opField_n (Op.code .sreset)
  | .arglo v => opField_h (Op.code .arglo) v
  | .arghi v => opField_h (Op.code .arghi) v
  | .rd v => opField_b (Op.code .rd) v
  | .zero v => opField_b (Op.code .zero) v
  | .setblen => opField_n (Op.code .setblen)
  | .bwr v => opField_b (Op.code .bwr) v
  | .brd => opField_n (Op.code .brd)
  | .saltw n v => opField_s (Op.code .saltw) v n
  | .hinit => opField_n (Op.code .hinit)
  | .hbyte v => opField_b (Op.code .hbyte) v
  | .oracle => opField_n (Op.code .oracle)
  | .mkrec => opField_n (Op.code .mkrec)
  | .kdf => opField_n (Op.code .kdf)
  | .sbinit => opField_n (Op.code .sbinit)
  | .crypt => opField_n (Op.code .crypt)

/-- The reserved field of an encoded command. -/
theorem reservedZero_encode : (i : Instr) → reservedZero i.op.format (encode i) = true
  | .nop => reservedZero_n (Op.code .nop)
  | .sreset => reservedZero_n (Op.code .sreset)
  | .arglo v => reservedZero_h (Op.code .arglo) v
  | .arghi v => reservedZero_h (Op.code .arghi) v
  | .rd v => reservedZero_b (Op.code .rd) v
  | .zero v => reservedZero_b (Op.code .zero) v
  | .setblen => reservedZero_n (Op.code .setblen)
  | .bwr v => reservedZero_b (Op.code .bwr) v
  | .brd => reservedZero_n (Op.code .brd)
  | .saltw n v => reservedZero_s (Op.code .saltw) v n
  | .hinit => reservedZero_n (Op.code .hinit)
  | .hbyte v => reservedZero_b (Op.code .hbyte) v
  | .oracle => reservedZero_n (Op.code .oracle)
  | .mkrec => reservedZero_n (Op.code .mkrec)
  | .kdf => reservedZero_n (Op.code .kdf)
  | .sbinit => reservedZero_n (Op.code .sbinit)
  | .crypt => reservedZero_n (Op.code .crypt)

/-- The operand fields of an encoded command. -/
theorem instr_encode : (i : Instr) → i.op.instr (encode i) = i
  | .nop => rfl
  | .sreset => rfl
  | .arglo v => congrArg Instr.arglo (halfField_h (Op.code .arglo) v)
  | .arghi v => congrArg Instr.arghi (halfField_h (Op.code .arghi) v)
  | .rd v => congrArg Instr.rd (byteField_b (Op.code .rd) v)
  | .zero v => congrArg Instr.zero (byteField_b (Op.code .zero) v)
  | .setblen => rfl
  | .bwr v => congrArg Instr.bwr (byteField_b (Op.code .bwr) v)
  | .brd => rfl
  | .saltw n v => congrArg₂ Instr.saltw (idxField_s (Op.code .saltw) v n) (byteField_s (Op.code .saltw) v n)
  | .hinit => rfl
  | .hbyte v => congrArg Instr.hbyte (byteField_b (Op.code .hbyte) v)
  | .oracle => rfl
  | .mkrec => rfl
  | .kdf => rfl
  | .sbinit => rfl
  | .crypt => rfl

/-! ### Words as numbers -/

/-- Appending as numbers. -/
theorem toNat_cat {m n : Nat} (a : BitVec m) (b : BitVec n) :
    (a ++ b).toNat = a.toNat * 2 ^ n + b.toNat := by
  rw [BitVec.toNat_append, ← Nat.shiftLeft_add_eq_or_of_lt b.isLt, Nat.shiftLeft_eq]

/-- A field as a number (00_scope.md R8). -/
theorem toNat_field (w : Word) (lo len : Nat) : (w.extractLsb' lo len).toNat = w.toNat / 2 ^ lo % 2 ^ len := by
  rw [BitVec.extractLsb'_toNat, Nat.shiftRight_eq_div_pow]

theorem opField_toNat (w : Word) : (opField w).toNat = w.toNat / 2 ^ 24 := by
  have := w.isLt
  unfold opField
  rw [toNat_field]
  omega

theorem field_eq_zero {w : Word} {lo len : Nat} (h : w.extractLsb' lo len = 0) :
    w.toNat / 2 ^ lo % 2 ^ len = 0 := by
  rw [← toNat_field, h]
  rfl

/-- A word with a zero reserved field is its opcode and operand fields put together, format by format. -/
theorem word_n {w : Word} (h : w.extractLsb' 0 24 = 0) : (opField w ++ 0#24 : Word) = w := by
  apply BitVec.eq_of_toNat_eq
  have := field_eq_zero h
  rw [toNat_cat, opField_toNat]
  simp
  omega

theorem word_b {w : Word} (h : w.extractLsb' 8 16 = 0) :
    (opField w ++ 0#16 ++ byteField w : Word) = w := by
  apply BitVec.eq_of_toNat_eq
  have := field_eq_zero h
  rw [toNat_cat, toNat_cat, opField_toNat, byteField, toNat_field]
  simp
  omega

theorem word_h {w : Word} (h : w.extractLsb' 16 8 = 0) :
    (opField w ++ 0#8 ++ halfField w : Word) = w := by
  apply BitVec.eq_of_toNat_eq
  have := field_eq_zero h
  rw [toNat_cat, toNat_cat, opField_toNat, halfField, toNat_field]
  simp
  omega

theorem word_s {w : Word} (h : w.extractLsb' 11 13 = 0) :
    (opField w ++ 0#13 ++ idxField w ++ byteField w : Word) = w := by
  apply BitVec.eq_of_toNat_eq
  have := field_eq_zero h
  rw [toNat_cat, toNat_cat, toNat_cat, opField_toNat, idxField, byteField, toNat_field, toNat_field]
  simp
  omega

/-- Decoding answers a command exactly when the opcode is in the table, the reserved field is zero and the
command is well formed (R86). -/
theorem decode_ok_iff {w : Word} {i : Instr} :
    decode w = .ok i ↔
      ∃ o, Op.ofCode (opField w) = some o ∧ reservedZero o.format w = true ∧ o.instr w = i ∧ i.wf = true := by
  unfold decode
  cases Op.ofCode (opField w) with
  | none => simp
  | some o =>
    cases hr : reservedZero o.format w <;> cases hw : (o.instr w).wf <;> simp [hr, hw]
    · rintro rfl
      exact hw
    · rintro rfl
      exact hw

end Sys2Proof
end

