-- ==== Sys2Proof/Laws/State.lean ====
section
/-! SUPPORT. One lemma per field per update of the state: what each named write of Machine/Ops.lean puts in each
field, so that no later proof unfolds a record update. -/

namespace Sys2Proof.Machine

variable (s : State)

/-! ### setArg -/

@[simp] theorem State.setArg_cfg (v : Word) : (s.setArg v).cfg = s.cfg := rfl
@[simp] theorem State.setArg_prog (v : Word) : (s.setArg v).prog = s.prog := rfl
@[simp] theorem State.setArg_k (v : Word) : (s.setArg v).k = s.k := rfl
@[simp] theorem State.setArg_arg (v : Word) : (s.setArg v).arg = v := rfl
@[simp] theorem State.setArg_dout (v : Word) : (s.setArg v).dout = s.dout := rfl
@[simp] theorem State.setArg_cidx (v : Word) : (s.setArg v).cidx = s.cidx := rfl
@[simp] theorem State.setArg_h (v : Word) : (s.setArg v).h = s.h := rfl
@[simp] theorem State.setArg_dec (v : Word) : (s.setArg v).dec = s.dec := rfl
@[simp] theorem State.setArg_mkv (v : Word) : (s.setArg v).mkv = s.mkv := rfl
@[simp] theorem State.setArg_saltv (v : Word) : (s.setArg v).saltv = s.saltv := rfl
@[simp] theorem State.setArg_dkv (v : Word) : (s.setArg v).dkv = s.dkv := rfl
@[simp] theorem State.setArg_sbv (v : Word) : (s.setArg v).sbv = s.sbv := rfl
@[simp] theorem State.setArg_flt (v : Word) : (s.setArg v).flt = s.flt := rfl
@[simp] theorem State.setArg_cause (v : Word) : (s.setArg v).cause = s.cause := rfl
@[simp] theorem State.setArg_ecmd (v : Word) : (s.setArg v).ecmd = s.ecmd := rfl
@[simp] theorem State.setArg_blen (v : Word) : (s.setArg v).blen = s.blen := rfl
@[simp] theorem State.setArg_dklen (v : Word) : (s.setArg v).dklen = s.dklen := rfl
@[simp] theorem State.setArg_mkey (v : Word) : (s.setArg v).mkey = s.mkey := rfl
@[simp] theorem State.setArg_salt (v : Word) : (s.setArg v).salt = s.salt := rfl
@[simp] theorem State.setArg_dk (v : Word) : (s.setArg v).dk = s.dk := rfl
@[simp] theorem State.setArg_sbox0 (v : Word) : (s.setArg v).sbox0 = s.sbox0 := rfl
@[simp] theorem State.setArg_buf (v : Word) : (s.setArg v).buf = s.buf := rfl

/-! ### setDout -/

@[simp] theorem State.setDout_cfg (v : Word) : (s.setDout v).cfg = s.cfg := rfl
@[simp] theorem State.setDout_prog (v : Word) : (s.setDout v).prog = s.prog := rfl
@[simp] theorem State.setDout_k (v : Word) : (s.setDout v).k = s.k := rfl
@[simp] theorem State.setDout_arg (v : Word) : (s.setDout v).arg = s.arg := rfl
@[simp] theorem State.setDout_dout (v : Word) : (s.setDout v).dout = v := rfl
@[simp] theorem State.setDout_cidx (v : Word) : (s.setDout v).cidx = s.cidx := rfl
@[simp] theorem State.setDout_h (v : Word) : (s.setDout v).h = s.h := rfl
@[simp] theorem State.setDout_dec (v : Word) : (s.setDout v).dec = s.dec := rfl
@[simp] theorem State.setDout_mkv (v : Word) : (s.setDout v).mkv = s.mkv := rfl
@[simp] theorem State.setDout_saltv (v : Word) : (s.setDout v).saltv = s.saltv := rfl
@[simp] theorem State.setDout_dkv (v : Word) : (s.setDout v).dkv = s.dkv := rfl
@[simp] theorem State.setDout_sbv (v : Word) : (s.setDout v).sbv = s.sbv := rfl
@[simp] theorem State.setDout_flt (v : Word) : (s.setDout v).flt = s.flt := rfl
@[simp] theorem State.setDout_cause (v : Word) : (s.setDout v).cause = s.cause := rfl
@[simp] theorem State.setDout_ecmd (v : Word) : (s.setDout v).ecmd = s.ecmd := rfl
@[simp] theorem State.setDout_blen (v : Word) : (s.setDout v).blen = s.blen := rfl
@[simp] theorem State.setDout_dklen (v : Word) : (s.setDout v).dklen = s.dklen := rfl
@[simp] theorem State.setDout_mkey (v : Word) : (s.setDout v).mkey = s.mkey := rfl
@[simp] theorem State.setDout_salt (v : Word) : (s.setDout v).salt = s.salt := rfl
@[simp] theorem State.setDout_dk (v : Word) : (s.setDout v).dk = s.dk := rfl
@[simp] theorem State.setDout_sbox0 (v : Word) : (s.setDout v).sbox0 = s.sbox0 := rfl
@[simp] theorem State.setDout_buf (v : Word) : (s.setDout v).buf = s.buf := rfl

/-! ### setH -/

@[simp] theorem State.setH_cfg (v : Word) : (s.setH v).cfg = s.cfg := rfl
@[simp] theorem State.setH_prog (v : Word) : (s.setH v).prog = s.prog := rfl
@[simp] theorem State.setH_k (v : Word) : (s.setH v).k = s.k := rfl
@[simp] theorem State.setH_arg (v : Word) : (s.setH v).arg = s.arg := rfl
@[simp] theorem State.setH_dout (v : Word) : (s.setH v).dout = s.dout := rfl
@[simp] theorem State.setH_cidx (v : Word) : (s.setH v).cidx = s.cidx := rfl
@[simp] theorem State.setH_h (v : Word) : (s.setH v).h = v := rfl
@[simp] theorem State.setH_dec (v : Word) : (s.setH v).dec = s.dec := rfl
@[simp] theorem State.setH_mkv (v : Word) : (s.setH v).mkv = s.mkv := rfl
@[simp] theorem State.setH_saltv (v : Word) : (s.setH v).saltv = s.saltv := rfl
@[simp] theorem State.setH_dkv (v : Word) : (s.setH v).dkv = s.dkv := rfl
@[simp] theorem State.setH_sbv (v : Word) : (s.setH v).sbv = s.sbv := rfl
@[simp] theorem State.setH_flt (v : Word) : (s.setH v).flt = s.flt := rfl
@[simp] theorem State.setH_cause (v : Word) : (s.setH v).cause = s.cause := rfl
@[simp] theorem State.setH_ecmd (v : Word) : (s.setH v).ecmd = s.ecmd := rfl
@[simp] theorem State.setH_blen (v : Word) : (s.setH v).blen = s.blen := rfl
@[simp] theorem State.setH_dklen (v : Word) : (s.setH v).dklen = s.dklen := rfl
@[simp] theorem State.setH_mkey (v : Word) : (s.setH v).mkey = s.mkey := rfl
@[simp] theorem State.setH_salt (v : Word) : (s.setH v).salt = s.salt := rfl
@[simp] theorem State.setH_dk (v : Word) : (s.setH v).dk = s.dk := rfl
@[simp] theorem State.setH_sbox0 (v : Word) : (s.setH v).sbox0 = s.sbox0 := rfl
@[simp] theorem State.setH_buf (v : Word) : (s.setH v).buf = s.buf := rfl

/-! ### setDec -/

@[simp] theorem State.setDec_cfg (v : Bool) : (s.setDec v).cfg = s.cfg := rfl
@[simp] theorem State.setDec_prog (v : Bool) : (s.setDec v).prog = s.prog := rfl
@[simp] theorem State.setDec_k (v : Bool) : (s.setDec v).k = s.k := rfl
@[simp] theorem State.setDec_arg (v : Bool) : (s.setDec v).arg = s.arg := rfl
@[simp] theorem State.setDec_dout (v : Bool) : (s.setDec v).dout = s.dout := rfl
@[simp] theorem State.setDec_cidx (v : Bool) : (s.setDec v).cidx = s.cidx := rfl
@[simp] theorem State.setDec_h (v : Bool) : (s.setDec v).h = s.h := rfl
@[simp] theorem State.setDec_dec (v : Bool) : (s.setDec v).dec = v := rfl
@[simp] theorem State.setDec_mkv (v : Bool) : (s.setDec v).mkv = s.mkv := rfl
@[simp] theorem State.setDec_saltv (v : Bool) : (s.setDec v).saltv = s.saltv := rfl
@[simp] theorem State.setDec_dkv (v : Bool) : (s.setDec v).dkv = s.dkv := rfl
@[simp] theorem State.setDec_sbv (v : Bool) : (s.setDec v).sbv = s.sbv := rfl
@[simp] theorem State.setDec_flt (v : Bool) : (s.setDec v).flt = s.flt := rfl
@[simp] theorem State.setDec_cause (v : Bool) : (s.setDec v).cause = s.cause := rfl
@[simp] theorem State.setDec_ecmd (v : Bool) : (s.setDec v).ecmd = s.ecmd := rfl
@[simp] theorem State.setDec_blen (v : Bool) : (s.setDec v).blen = s.blen := rfl
@[simp] theorem State.setDec_dklen (v : Bool) : (s.setDec v).dklen = s.dklen := rfl
@[simp] theorem State.setDec_mkey (v : Bool) : (s.setDec v).mkey = s.mkey := rfl
@[simp] theorem State.setDec_salt (v : Bool) : (s.setDec v).salt = s.salt := rfl
@[simp] theorem State.setDec_dk (v : Bool) : (s.setDec v).dk = s.dk := rfl
@[simp] theorem State.setDec_sbox0 (v : Bool) : (s.setDec v).sbox0 = s.sbox0 := rfl
@[simp] theorem State.setDec_buf (v : Bool) : (s.setDec v).buf = s.buf := rfl

/-! ### setBlen -/

@[simp] theorem State.setBlen_cfg (v : Word) : (s.setBlen v).cfg = s.cfg := rfl
@[simp] theorem State.setBlen_prog (v : Word) : (s.setBlen v).prog = s.prog := rfl
@[simp] theorem State.setBlen_k (v : Word) : (s.setBlen v).k = s.k := rfl
@[simp] theorem State.setBlen_arg (v : Word) : (s.setBlen v).arg = s.arg := rfl
@[simp] theorem State.setBlen_dout (v : Word) : (s.setBlen v).dout = s.dout := rfl
@[simp] theorem State.setBlen_cidx (v : Word) : (s.setBlen v).cidx = s.cidx := rfl
@[simp] theorem State.setBlen_h (v : Word) : (s.setBlen v).h = s.h := rfl
@[simp] theorem State.setBlen_dec (v : Word) : (s.setBlen v).dec = s.dec := rfl
@[simp] theorem State.setBlen_mkv (v : Word) : (s.setBlen v).mkv = s.mkv := rfl
@[simp] theorem State.setBlen_saltv (v : Word) : (s.setBlen v).saltv = s.saltv := rfl
@[simp] theorem State.setBlen_dkv (v : Word) : (s.setBlen v).dkv = s.dkv := rfl
@[simp] theorem State.setBlen_sbv (v : Word) : (s.setBlen v).sbv = s.sbv := rfl
@[simp] theorem State.setBlen_flt (v : Word) : (s.setBlen v).flt = s.flt := rfl
@[simp] theorem State.setBlen_cause (v : Word) : (s.setBlen v).cause = s.cause := rfl
@[simp] theorem State.setBlen_ecmd (v : Word) : (s.setBlen v).ecmd = s.ecmd := rfl
@[simp] theorem State.setBlen_blen (v : Word) : (s.setBlen v).blen = v := rfl
@[simp] theorem State.setBlen_dklen (v : Word) : (s.setBlen v).dklen = s.dklen := rfl
@[simp] theorem State.setBlen_mkey (v : Word) : (s.setBlen v).mkey = s.mkey := rfl
@[simp] theorem State.setBlen_salt (v : Word) : (s.setBlen v).salt = s.salt := rfl
@[simp] theorem State.setBlen_dk (v : Word) : (s.setBlen v).dk = s.dk := rfl
@[simp] theorem State.setBlen_sbox0 (v : Word) : (s.setBlen v).sbox0 = s.sbox0 := rfl
@[simp] theorem State.setBlen_buf (v : Word) : (s.setBlen v).buf = s.buf := rfl

/-! ### setMk -/

@[simp] theorem State.setMk_cfg (b : Vector Byte 16) (v : Bool) : (s.setMk b v).cfg = s.cfg := rfl
@[simp] theorem State.setMk_prog (b : Vector Byte 16) (v : Bool) : (s.setMk b v).prog = s.prog := rfl
@[simp] theorem State.setMk_k (b : Vector Byte 16) (v : Bool) : (s.setMk b v).k = s.k := rfl
@[simp] theorem State.setMk_arg (b : Vector Byte 16) (v : Bool) : (s.setMk b v).arg = s.arg := rfl
@[simp] theorem State.setMk_dout (b : Vector Byte 16) (v : Bool) : (s.setMk b v).dout = s.dout := rfl
@[simp] theorem State.setMk_cidx (b : Vector Byte 16) (v : Bool) : (s.setMk b v).cidx = s.cidx := rfl
@[simp] theorem State.setMk_h (b : Vector Byte 16) (v : Bool) : (s.setMk b v).h = s.h := rfl
@[simp] theorem State.setMk_dec (b : Vector Byte 16) (v : Bool) : (s.setMk b v).dec = s.dec := rfl
@[simp] theorem State.setMk_mkv (b : Vector Byte 16) (v : Bool) : (s.setMk b v).mkv = v := rfl
@[simp] theorem State.setMk_saltv (b : Vector Byte 16) (v : Bool) : (s.setMk b v).saltv = s.saltv := rfl
@[simp] theorem State.setMk_dkv (b : Vector Byte 16) (v : Bool) : (s.setMk b v).dkv = s.dkv := rfl
@[simp] theorem State.setMk_sbv (b : Vector Byte 16) (v : Bool) : (s.setMk b v).sbv = s.sbv := rfl
@[simp] theorem State.setMk_flt (b : Vector Byte 16) (v : Bool) : (s.setMk b v).flt = s.flt := rfl
@[simp] theorem State.setMk_cause (b : Vector Byte 16) (v : Bool) : (s.setMk b v).cause = s.cause := rfl
@[simp] theorem State.setMk_ecmd (b : Vector Byte 16) (v : Bool) : (s.setMk b v).ecmd = s.ecmd := rfl
@[simp] theorem State.setMk_blen (b : Vector Byte 16) (v : Bool) : (s.setMk b v).blen = s.blen := rfl
@[simp] theorem State.setMk_dklen (b : Vector Byte 16) (v : Bool) : (s.setMk b v).dklen = s.dklen := rfl
@[simp] theorem State.setMk_mkey (b : Vector Byte 16) (v : Bool) : (s.setMk b v).mkey = b := rfl
@[simp] theorem State.setMk_salt (b : Vector Byte 16) (v : Bool) : (s.setMk b v).salt = s.salt := rfl
@[simp] theorem State.setMk_dk (b : Vector Byte 16) (v : Bool) : (s.setMk b v).dk = s.dk := rfl
@[simp] theorem State.setMk_sbox0 (b : Vector Byte 16) (v : Bool) : (s.setMk b v).sbox0 = s.sbox0 := rfl
@[simp] theorem State.setMk_buf (b : Vector Byte 16) (v : Bool) : (s.setMk b v).buf = s.buf := rfl

/-! ### setSalt -/

@[simp] theorem State.setSalt_cfg (b : Vector Byte 8) (v : BitVec 8) : (s.setSalt b v).cfg = s.cfg := rfl
@[simp] theorem State.setSalt_prog (b : Vector Byte 8) (v : BitVec 8) : (s.setSalt b v).prog = s.prog := rfl
@[simp] theorem State.setSalt_k (b : Vector Byte 8) (v : BitVec 8) : (s.setSalt b v).k = s.k := rfl
@[simp] theorem State.setSalt_arg (b : Vector Byte 8) (v : BitVec 8) : (s.setSalt b v).arg = s.arg := rfl
@[simp] theorem State.setSalt_dout (b : Vector Byte 8) (v : BitVec 8) : (s.setSalt b v).dout = s.dout := rfl
@[simp] theorem State.setSalt_cidx (b : Vector Byte 8) (v : BitVec 8) : (s.setSalt b v).cidx = s.cidx := rfl
@[simp] theorem State.setSalt_h (b : Vector Byte 8) (v : BitVec 8) : (s.setSalt b v).h = s.h := rfl
@[simp] theorem State.setSalt_dec (b : Vector Byte 8) (v : BitVec 8) : (s.setSalt b v).dec = s.dec := rfl
@[simp] theorem State.setSalt_mkv (b : Vector Byte 8) (v : BitVec 8) : (s.setSalt b v).mkv = s.mkv := rfl
@[simp] theorem State.setSalt_saltv (b : Vector Byte 8) (v : BitVec 8) : (s.setSalt b v).saltv = v := rfl
@[simp] theorem State.setSalt_dkv (b : Vector Byte 8) (v : BitVec 8) : (s.setSalt b v).dkv = s.dkv := rfl
@[simp] theorem State.setSalt_sbv (b : Vector Byte 8) (v : BitVec 8) : (s.setSalt b v).sbv = s.sbv := rfl
@[simp] theorem State.setSalt_flt (b : Vector Byte 8) (v : BitVec 8) : (s.setSalt b v).flt = s.flt := rfl
@[simp] theorem State.setSalt_cause (b : Vector Byte 8) (v : BitVec 8) : (s.setSalt b v).cause = s.cause := rfl
@[simp] theorem State.setSalt_ecmd (b : Vector Byte 8) (v : BitVec 8) : (s.setSalt b v).ecmd = s.ecmd := rfl
@[simp] theorem State.setSalt_blen (b : Vector Byte 8) (v : BitVec 8) : (s.setSalt b v).blen = s.blen := rfl
@[simp] theorem State.setSalt_dklen (b : Vector Byte 8) (v : BitVec 8) : (s.setSalt b v).dklen = s.dklen := rfl
@[simp] theorem State.setSalt_mkey (b : Vector Byte 8) (v : BitVec 8) : (s.setSalt b v).mkey = s.mkey := rfl
@[simp] theorem State.setSalt_salt (b : Vector Byte 8) (v : BitVec 8) : (s.setSalt b v).salt = b := rfl
@[simp] theorem State.setSalt_dk (b : Vector Byte 8) (v : BitVec 8) : (s.setSalt b v).dk = s.dk := rfl
@[simp] theorem State.setSalt_sbox0 (b : Vector Byte 8) (v : BitVec 8) : (s.setSalt b v).sbox0 = s.sbox0 := rfl
@[simp] theorem State.setSalt_buf (b : Vector Byte 8) (v : BitVec 8) : (s.setSalt b v).buf = s.buf := rfl

/-! ### setDk -/

@[simp] theorem State.setDk_cfg (b : List Byte) (n : Word) (v : Bool) : (s.setDk b n v).cfg = s.cfg := rfl
@[simp] theorem State.setDk_prog (b : List Byte) (n : Word) (v : Bool) : (s.setDk b n v).prog = s.prog := rfl
@[simp] theorem State.setDk_k (b : List Byte) (n : Word) (v : Bool) : (s.setDk b n v).k = s.k := rfl
@[simp] theorem State.setDk_arg (b : List Byte) (n : Word) (v : Bool) : (s.setDk b n v).arg = s.arg := rfl
@[simp] theorem State.setDk_dout (b : List Byte) (n : Word) (v : Bool) : (s.setDk b n v).dout = s.dout := rfl
@[simp] theorem State.setDk_cidx (b : List Byte) (n : Word) (v : Bool) : (s.setDk b n v).cidx = s.cidx := rfl
@[simp] theorem State.setDk_h (b : List Byte) (n : Word) (v : Bool) : (s.setDk b n v).h = s.h := rfl
@[simp] theorem State.setDk_dec (b : List Byte) (n : Word) (v : Bool) : (s.setDk b n v).dec = s.dec := rfl
@[simp] theorem State.setDk_mkv (b : List Byte) (n : Word) (v : Bool) : (s.setDk b n v).mkv = s.mkv := rfl
@[simp] theorem State.setDk_saltv (b : List Byte) (n : Word) (v : Bool) : (s.setDk b n v).saltv = s.saltv := rfl
@[simp] theorem State.setDk_dkv (b : List Byte) (n : Word) (v : Bool) : (s.setDk b n v).dkv = v := rfl
@[simp] theorem State.setDk_sbv (b : List Byte) (n : Word) (v : Bool) : (s.setDk b n v).sbv = s.sbv := rfl
@[simp] theorem State.setDk_flt (b : List Byte) (n : Word) (v : Bool) : (s.setDk b n v).flt = s.flt := rfl
@[simp] theorem State.setDk_cause (b : List Byte) (n : Word) (v : Bool) : (s.setDk b n v).cause = s.cause := rfl
@[simp] theorem State.setDk_ecmd (b : List Byte) (n : Word) (v : Bool) : (s.setDk b n v).ecmd = s.ecmd := rfl
@[simp] theorem State.setDk_blen (b : List Byte) (n : Word) (v : Bool) : (s.setDk b n v).blen = s.blen := rfl
@[simp] theorem State.setDk_dklen (b : List Byte) (n : Word) (v : Bool) : (s.setDk b n v).dklen = n := rfl
@[simp] theorem State.setDk_mkey (b : List Byte) (n : Word) (v : Bool) : (s.setDk b n v).mkey = s.mkey := rfl
@[simp] theorem State.setDk_salt (b : List Byte) (n : Word) (v : Bool) : (s.setDk b n v).salt = s.salt := rfl
@[simp] theorem State.setDk_dk (b : List Byte) (n : Word) (v : Bool) : (s.setDk b n v).dk = b := rfl
@[simp] theorem State.setDk_sbox0 (b : List Byte) (n : Word) (v : Bool) : (s.setDk b n v).sbox0 = s.sbox0 := rfl
@[simp] theorem State.setDk_buf (b : List Byte) (n : Word) (v : Bool) : (s.setDk b n v).buf = s.buf := rfl

/-! ### setSbox -/

@[simp] theorem State.setSbox_cfg (t : Table) (v : Bool) : (s.setSbox t v).cfg = s.cfg := rfl
@[simp] theorem State.setSbox_prog (t : Table) (v : Bool) : (s.setSbox t v).prog = s.prog := rfl
@[simp] theorem State.setSbox_k (t : Table) (v : Bool) : (s.setSbox t v).k = s.k := rfl
@[simp] theorem State.setSbox_arg (t : Table) (v : Bool) : (s.setSbox t v).arg = s.arg := rfl
@[simp] theorem State.setSbox_dout (t : Table) (v : Bool) : (s.setSbox t v).dout = s.dout := rfl
@[simp] theorem State.setSbox_cidx (t : Table) (v : Bool) : (s.setSbox t v).cidx = s.cidx := rfl
@[simp] theorem State.setSbox_h (t : Table) (v : Bool) : (s.setSbox t v).h = s.h := rfl
@[simp] theorem State.setSbox_dec (t : Table) (v : Bool) : (s.setSbox t v).dec = s.dec := rfl
@[simp] theorem State.setSbox_mkv (t : Table) (v : Bool) : (s.setSbox t v).mkv = s.mkv := rfl
@[simp] theorem State.setSbox_saltv (t : Table) (v : Bool) : (s.setSbox t v).saltv = s.saltv := rfl
@[simp] theorem State.setSbox_dkv (t : Table) (v : Bool) : (s.setSbox t v).dkv = s.dkv := rfl
@[simp] theorem State.setSbox_sbv (t : Table) (v : Bool) : (s.setSbox t v).sbv = v := rfl
@[simp] theorem State.setSbox_flt (t : Table) (v : Bool) : (s.setSbox t v).flt = s.flt := rfl
@[simp] theorem State.setSbox_cause (t : Table) (v : Bool) : (s.setSbox t v).cause = s.cause := rfl
@[simp] theorem State.setSbox_ecmd (t : Table) (v : Bool) : (s.setSbox t v).ecmd = s.ecmd := rfl
@[simp] theorem State.setSbox_blen (t : Table) (v : Bool) : (s.setSbox t v).blen = s.blen := rfl
@[simp] theorem State.setSbox_dklen (t : Table) (v : Bool) : (s.setSbox t v).dklen = s.dklen := rfl
@[simp] theorem State.setSbox_mkey (t : Table) (v : Bool) : (s.setSbox t v).mkey = s.mkey := rfl
@[simp] theorem State.setSbox_salt (t : Table) (v : Bool) : (s.setSbox t v).salt = s.salt := rfl
@[simp] theorem State.setSbox_dk (t : Table) (v : Bool) : (s.setSbox t v).dk = s.dk := rfl
@[simp] theorem State.setSbox_sbox0 (t : Table) (v : Bool) : (s.setSbox t v).sbox0 = t := rfl
@[simp] theorem State.setSbox_buf (t : Table) (v : Bool) : (s.setSbox t v).buf = s.buf := rfl

/-! ### setBuf -/

@[simp] theorem State.setBuf_cfg (m : Memory) : (s.setBuf m).cfg = s.cfg := rfl
@[simp] theorem State.setBuf_prog (m : Memory) : (s.setBuf m).prog = s.prog := rfl
@[simp] theorem State.setBuf_k (m : Memory) : (s.setBuf m).k = s.k := rfl
@[simp] theorem State.setBuf_arg (m : Memory) : (s.setBuf m).arg = s.arg := rfl
@[simp] theorem State.setBuf_dout (m : Memory) : (s.setBuf m).dout = s.dout := rfl
@[simp] theorem State.setBuf_cidx (m : Memory) : (s.setBuf m).cidx = s.cidx := rfl
@[simp] theorem State.setBuf_h (m : Memory) : (s.setBuf m).h = s.h := rfl
@[simp] theorem State.setBuf_dec (m : Memory) : (s.setBuf m).dec = s.dec := rfl
@[simp] theorem State.setBuf_mkv (m : Memory) : (s.setBuf m).mkv = s.mkv := rfl
@[simp] theorem State.setBuf_saltv (m : Memory) : (s.setBuf m).saltv = s.saltv := rfl
@[simp] theorem State.setBuf_dkv (m : Memory) : (s.setBuf m).dkv = s.dkv := rfl
@[simp] theorem State.setBuf_sbv (m : Memory) : (s.setBuf m).sbv = s.sbv := rfl
@[simp] theorem State.setBuf_flt (m : Memory) : (s.setBuf m).flt = s.flt := rfl
@[simp] theorem State.setBuf_cause (m : Memory) : (s.setBuf m).cause = s.cause := rfl
@[simp] theorem State.setBuf_ecmd (m : Memory) : (s.setBuf m).ecmd = s.ecmd := rfl
@[simp] theorem State.setBuf_blen (m : Memory) : (s.setBuf m).blen = s.blen := rfl
@[simp] theorem State.setBuf_dklen (m : Memory) : (s.setBuf m).dklen = s.dklen := rfl
@[simp] theorem State.setBuf_mkey (m : Memory) : (s.setBuf m).mkey = s.mkey := rfl
@[simp] theorem State.setBuf_salt (m : Memory) : (s.setBuf m).salt = s.salt := rfl
@[simp] theorem State.setBuf_dk (m : Memory) : (s.setBuf m).dk = s.dk := rfl
@[simp] theorem State.setBuf_sbox0 (m : Memory) : (s.setBuf m).sbox0 = s.sbox0 := rfl
@[simp] theorem State.setBuf_buf (m : Memory) : (s.setBuf m).buf = m := rfl

/-! ### countCommand -/

@[simp] theorem State.countCommand_cfg : (s.countCommand).cfg = s.cfg := rfl
@[simp] theorem State.countCommand_prog : (s.countCommand).prog = s.prog := rfl
@[simp] theorem State.countCommand_k : (s.countCommand).k = s.k := rfl
@[simp] theorem State.countCommand_arg : (s.countCommand).arg = s.arg := rfl
@[simp] theorem State.countCommand_dout : (s.countCommand).dout = s.dout := rfl
@[simp] theorem State.countCommand_cidx : (s.countCommand).cidx = s.cidx + 1 := rfl
@[simp] theorem State.countCommand_h : (s.countCommand).h = s.h := rfl
@[simp] theorem State.countCommand_dec : (s.countCommand).dec = s.dec := rfl
@[simp] theorem State.countCommand_mkv : (s.countCommand).mkv = s.mkv := rfl
@[simp] theorem State.countCommand_saltv : (s.countCommand).saltv = s.saltv := rfl
@[simp] theorem State.countCommand_dkv : (s.countCommand).dkv = s.dkv := rfl
@[simp] theorem State.countCommand_sbv : (s.countCommand).sbv = s.sbv := rfl
@[simp] theorem State.countCommand_flt : (s.countCommand).flt = s.flt := rfl
@[simp] theorem State.countCommand_cause : (s.countCommand).cause = s.cause := rfl
@[simp] theorem State.countCommand_ecmd : (s.countCommand).ecmd = s.ecmd := rfl
@[simp] theorem State.countCommand_blen : (s.countCommand).blen = s.blen := rfl
@[simp] theorem State.countCommand_dklen : (s.countCommand).dklen = s.dklen := rfl
@[simp] theorem State.countCommand_mkey : (s.countCommand).mkey = s.mkey := rfl
@[simp] theorem State.countCommand_salt : (s.countCommand).salt = s.salt := rfl
@[simp] theorem State.countCommand_dk : (s.countCommand).dk = s.dk := rfl
@[simp] theorem State.countCommand_sbox0 : (s.countCommand).sbox0 = s.sbox0 := rfl
@[simp] theorem State.countCommand_buf : (s.countCommand).buf = s.buf := rfl

/-! ### advance -/

@[simp] theorem State.advance_cfg : (s.advance).cfg = s.cfg := rfl
@[simp] theorem State.advance_prog : (s.advance).prog = s.prog := rfl
@[simp] theorem State.advance_k : (s.advance).k = s.k + 1 := rfl
@[simp] theorem State.advance_arg : (s.advance).arg = s.arg := rfl
@[simp] theorem State.advance_dout : (s.advance).dout = s.dout := rfl
@[simp] theorem State.advance_cidx : (s.advance).cidx = s.cidx := rfl
@[simp] theorem State.advance_h : (s.advance).h = s.h := rfl
@[simp] theorem State.advance_dec : (s.advance).dec = s.dec := rfl
@[simp] theorem State.advance_mkv : (s.advance).mkv = s.mkv := rfl
@[simp] theorem State.advance_saltv : (s.advance).saltv = s.saltv := rfl
@[simp] theorem State.advance_dkv : (s.advance).dkv = s.dkv := rfl
@[simp] theorem State.advance_sbv : (s.advance).sbv = s.sbv := rfl
@[simp] theorem State.advance_flt : (s.advance).flt = s.flt := rfl
@[simp] theorem State.advance_cause : (s.advance).cause = s.cause := rfl
@[simp] theorem State.advance_ecmd : (s.advance).ecmd = s.ecmd := rfl
@[simp] theorem State.advance_blen : (s.advance).blen = s.blen := rfl
@[simp] theorem State.advance_dklen : (s.advance).dklen = s.dklen := rfl
@[simp] theorem State.advance_mkey : (s.advance).mkey = s.mkey := rfl
@[simp] theorem State.advance_salt : (s.advance).salt = s.salt := rfl
@[simp] theorem State.advance_dk : (s.advance).dk = s.dk := rfl
@[simp] theorem State.advance_sbox0 : (s.advance).sbox0 = s.sbox0 := rfl
@[simp] theorem State.advance_buf : (s.advance).buf = s.buf := rfl

/-! ### stepArg -/

@[simp] theorem State.stepArg_cfg : (s.stepArg).cfg = s.cfg := rfl
@[simp] theorem State.stepArg_prog : (s.stepArg).prog = s.prog := rfl
@[simp] theorem State.stepArg_k : (s.stepArg).k = s.k := rfl
@[simp] theorem State.stepArg_arg : (s.stepArg).arg = s.arg + 1 := rfl
@[simp] theorem State.stepArg_dout : (s.stepArg).dout = s.dout := rfl
@[simp] theorem State.stepArg_cidx : (s.stepArg).cidx = s.cidx := rfl
@[simp] theorem State.stepArg_h : (s.stepArg).h = s.h := rfl
@[simp] theorem State.stepArg_dec : (s.stepArg).dec = s.dec := rfl
@[simp] theorem State.stepArg_mkv : (s.stepArg).mkv = s.mkv := rfl
@[simp] theorem State.stepArg_saltv : (s.stepArg).saltv = s.saltv := rfl
@[simp] theorem State.stepArg_dkv : (s.stepArg).dkv = s.dkv := rfl
@[simp] theorem State.stepArg_sbv : (s.stepArg).sbv = s.sbv := rfl
@[simp] theorem State.stepArg_flt : (s.stepArg).flt = s.flt := rfl
@[simp] theorem State.stepArg_cause : (s.stepArg).cause = s.cause := rfl
@[simp] theorem State.stepArg_ecmd : (s.stepArg).ecmd = s.ecmd := rfl
@[simp] theorem State.stepArg_blen : (s.stepArg).blen = s.blen := rfl
@[simp] theorem State.stepArg_dklen : (s.stepArg).dklen = s.dklen := rfl
@[simp] theorem State.stepArg_mkey : (s.stepArg).mkey = s.mkey := rfl
@[simp] theorem State.stepArg_salt : (s.stepArg).salt = s.salt := rfl
@[simp] theorem State.stepArg_dk : (s.stepArg).dk = s.dk := rfl
@[simp] theorem State.stepArg_sbox0 : (s.stepArg).sbox0 = s.sbox0 := rfl
@[simp] theorem State.stepArg_buf : (s.stepArg).buf = s.buf := rfl

/-! ### recordFault -/

@[simp] theorem State.recordFault_cfg (c : Cause) (w : Word) : (s.recordFault c w).cfg = s.cfg := rfl
@[simp] theorem State.recordFault_prog (c : Cause) (w : Word) : (s.recordFault c w).prog = s.prog := rfl
@[simp] theorem State.recordFault_k (c : Cause) (w : Word) : (s.recordFault c w).k = s.k := rfl
@[simp] theorem State.recordFault_arg (c : Cause) (w : Word) : (s.recordFault c w).arg = s.arg := rfl
@[simp] theorem State.recordFault_dout (c : Cause) (w : Word) : (s.recordFault c w).dout = s.dout := rfl
@[simp] theorem State.recordFault_cidx (c : Cause) (w : Word) : (s.recordFault c w).cidx = s.cidx := rfl
@[simp] theorem State.recordFault_h (c : Cause) (w : Word) : (s.recordFault c w).h = s.h := rfl
@[simp] theorem State.recordFault_dec (c : Cause) (w : Word) : (s.recordFault c w).dec = s.dec := rfl
@[simp] theorem State.recordFault_mkv (c : Cause) (w : Word) : (s.recordFault c w).mkv = s.mkv := rfl
@[simp] theorem State.recordFault_saltv (c : Cause) (w : Word) : (s.recordFault c w).saltv = s.saltv := rfl
@[simp] theorem State.recordFault_dkv (c : Cause) (w : Word) : (s.recordFault c w).dkv = s.dkv := rfl
@[simp] theorem State.recordFault_sbv (c : Cause) (w : Word) : (s.recordFault c w).sbv = s.sbv := rfl
@[simp] theorem State.recordFault_flt (c : Cause) (w : Word) : (s.recordFault c w).flt = true := rfl
@[simp] theorem State.recordFault_cause (c : Cause) (w : Word) : (s.recordFault c w).cause = c.code := rfl
@[simp] theorem State.recordFault_ecmd (c : Cause) (w : Word) : (s.recordFault c w).ecmd = w := rfl
@[simp] theorem State.recordFault_blen (c : Cause) (w : Word) : (s.recordFault c w).blen = s.blen := rfl
@[simp] theorem State.recordFault_dklen (c : Cause) (w : Word) : (s.recordFault c w).dklen = s.dklen := rfl
@[simp] theorem State.recordFault_mkey (c : Cause) (w : Word) : (s.recordFault c w).mkey = s.mkey := rfl
@[simp] theorem State.recordFault_salt (c : Cause) (w : Word) : (s.recordFault c w).salt = s.salt := rfl
@[simp] theorem State.recordFault_dk (c : Cause) (w : Word) : (s.recordFault c w).dk = s.dk := rfl
@[simp] theorem State.recordFault_sbox0 (c : Cause) (w : Word) : (s.recordFault c w).sbox0 = s.sbox0 := rfl
@[simp] theorem State.recordFault_buf (c : Cause) (w : Word) : (s.recordFault c w).buf = s.buf := rfl

/-! ### withNext -/

@[simp] theorem State.withNext_cfg (w : Word) : (s.withNext w).cfg = s.cfg := rfl
@[simp] theorem State.withNext_prog (w : Word) : (s.withNext w).prog = placeAt s.prog s.k w := rfl
@[simp] theorem State.withNext_k (w : Word) : (s.withNext w).k = s.k := rfl
@[simp] theorem State.withNext_arg (w : Word) : (s.withNext w).arg = s.arg := rfl
@[simp] theorem State.withNext_dout (w : Word) : (s.withNext w).dout = s.dout := rfl
@[simp] theorem State.withNext_cidx (w : Word) : (s.withNext w).cidx = s.cidx := rfl
@[simp] theorem State.withNext_h (w : Word) : (s.withNext w).h = s.h := rfl
@[simp] theorem State.withNext_dec (w : Word) : (s.withNext w).dec = s.dec := rfl
@[simp] theorem State.withNext_mkv (w : Word) : (s.withNext w).mkv = s.mkv := rfl
@[simp] theorem State.withNext_saltv (w : Word) : (s.withNext w).saltv = s.saltv := rfl
@[simp] theorem State.withNext_dkv (w : Word) : (s.withNext w).dkv = s.dkv := rfl
@[simp] theorem State.withNext_sbv (w : Word) : (s.withNext w).sbv = s.sbv := rfl
@[simp] theorem State.withNext_flt (w : Word) : (s.withNext w).flt = s.flt := rfl
@[simp] theorem State.withNext_cause (w : Word) : (s.withNext w).cause = s.cause := rfl
@[simp] theorem State.withNext_ecmd (w : Word) : (s.withNext w).ecmd = s.ecmd := rfl
@[simp] theorem State.withNext_blen (w : Word) : (s.withNext w).blen = s.blen := rfl
@[simp] theorem State.withNext_dklen (w : Word) : (s.withNext w).dklen = s.dklen := rfl
@[simp] theorem State.withNext_mkey (w : Word) : (s.withNext w).mkey = s.mkey := rfl
@[simp] theorem State.withNext_salt (w : Word) : (s.withNext w).salt = s.salt := rfl
@[simp] theorem State.withNext_dk (w : Word) : (s.withNext w).dk = s.dk := rfl
@[simp] theorem State.withNext_sbox0 (w : Word) : (s.withNext w).sbox0 = s.sbox0 := rfl
@[simp] theorem State.withNext_buf (w : Word) : (s.withNext w).buf = s.buf := rfl

/-! ### Reset -/

@[simp] theorem State.resetWith_cfg (cfg : Config) (prog : List Word) (k : Nat) :
    (State.resetWith cfg prog k).cfg = cfg := rfl
@[simp] theorem State.resetWith_prog (cfg : Config) (prog : List Word) (k : Nat) :
    (State.resetWith cfg prog k).prog = prog := rfl
@[simp] theorem State.resetWith_k (cfg : Config) (prog : List Word) (k : Nat) :
    (State.resetWith cfg prog k).k = k := rfl
@[simp] theorem State.resetWith_arg (cfg : Config) (prog : List Word) (k : Nat) :
    (State.resetWith cfg prog k).arg = 0 := rfl
@[simp] theorem State.resetWith_dout (cfg : Config) (prog : List Word) (k : Nat) :
    (State.resetWith cfg prog k).dout = 0 := rfl
@[simp] theorem State.resetWith_cidx (cfg : Config) (prog : List Word) (k : Nat) :
    (State.resetWith cfg prog k).cidx = 0 := rfl
@[simp] theorem State.resetWith_h (cfg : Config) (prog : List Word) (k : Nat) :
    (State.resetWith cfg prog k).h = hashInit := rfl
@[simp] theorem State.resetWith_dec (cfg : Config) (prog : List Word) (k : Nat) :
    (State.resetWith cfg prog k).dec = false := rfl
@[simp] theorem State.resetWith_mkv (cfg : Config) (prog : List Word) (k : Nat) :
    (State.resetWith cfg prog k).mkv = false := rfl
@[simp] theorem State.resetWith_saltv (cfg : Config) (prog : List Word) (k : Nat) :
    (State.resetWith cfg prog k).saltv = 0 := rfl
@[simp] theorem State.resetWith_dkv (cfg : Config) (prog : List Word) (k : Nat) :
    (State.resetWith cfg prog k).dkv = false := rfl
@[simp] theorem State.resetWith_sbv (cfg : Config) (prog : List Word) (k : Nat) :
    (State.resetWith cfg prog k).sbv = false := rfl
@[simp] theorem State.resetWith_flt (cfg : Config) (prog : List Word) (k : Nat) :
    (State.resetWith cfg prog k).flt = false := rfl
@[simp] theorem State.resetWith_cause (cfg : Config) (prog : List Word) (k : Nat) :
    (State.resetWith cfg prog k).cause = 0 := rfl
@[simp] theorem State.resetWith_ecmd (cfg : Config) (prog : List Word) (k : Nat) :
    (State.resetWith cfg prog k).ecmd = 0 := rfl
@[simp] theorem State.resetWith_blen (cfg : Config) (prog : List Word) (k : Nat) :
    (State.resetWith cfg prog k).blen = 0 := rfl
@[simp] theorem State.resetWith_dklen (cfg : Config) (prog : List Word) (k : Nat) :
    (State.resetWith cfg prog k).dklen = 0 := rfl
@[simp] theorem State.resetWith_mkey (cfg : Config) (prog : List Word) (k : Nat) :
    (State.resetWith cfg prog k).mkey = Vector.replicate _ 0 := rfl
@[simp] theorem State.resetWith_salt (cfg : Config) (prog : List Word) (k : Nat) :
    (State.resetWith cfg prog k).salt = Vector.replicate _ 0 := rfl
@[simp] theorem State.resetWith_dk (cfg : Config) (prog : List Word) (k : Nat) :
    (State.resetWith cfg prog k).dk = [] := rfl
@[simp] theorem State.resetWith_sbox0 (cfg : Config) (prog : List Word) (k : Nat) :
    (State.resetWith cfg prog k).sbox0 = Vector.replicate _ 0 := rfl
@[simp] theorem State.resetWith_buf (cfg : Config) (prog : List Word) (k : Nat) :
    (State.resetWith cfg prog k).buf = [] := rfl
@[simp] theorem State.hardwareReset_cfg : s.hardwareReset.cfg = s.cfg := rfl
@[simp] theorem State.hardwareReset_prog : s.hardwareReset.prog = s.prog := rfl
@[simp] theorem State.hardwareReset_k : s.hardwareReset.k = s.k := rfl
@[simp] theorem State.hardwareReset_arg : s.hardwareReset.arg = 0 := rfl
@[simp] theorem State.hardwareReset_dout : s.hardwareReset.dout = 0 := rfl
@[simp] theorem State.hardwareReset_cidx : s.hardwareReset.cidx = 0 := rfl
@[simp] theorem State.hardwareReset_h : s.hardwareReset.h = hashInit := rfl
@[simp] theorem State.hardwareReset_dec : s.hardwareReset.dec = false := rfl
@[simp] theorem State.hardwareReset_mkv : s.hardwareReset.mkv = false := rfl
@[simp] theorem State.hardwareReset_saltv : s.hardwareReset.saltv = 0 := rfl
@[simp] theorem State.hardwareReset_dkv : s.hardwareReset.dkv = false := rfl
@[simp] theorem State.hardwareReset_sbv : s.hardwareReset.sbv = false := rfl
@[simp] theorem State.hardwareReset_flt : s.hardwareReset.flt = false := rfl
@[simp] theorem State.hardwareReset_cause : s.hardwareReset.cause = 0 := rfl
@[simp] theorem State.hardwareReset_ecmd : s.hardwareReset.ecmd = 0 := rfl
@[simp] theorem State.hardwareReset_blen : s.hardwareReset.blen = 0 := rfl
@[simp] theorem State.hardwareReset_dklen : s.hardwareReset.dklen = 0 := rfl
@[simp] theorem State.hardwareReset_mkey : s.hardwareReset.mkey = Vector.replicate _ 0 := rfl
@[simp] theorem State.hardwareReset_salt : s.hardwareReset.salt = Vector.replicate _ 0 := rfl
@[simp] theorem State.hardwareReset_dk : s.hardwareReset.dk = [] := rfl
@[simp] theorem State.hardwareReset_sbox0 : s.hardwareReset.sbox0 = Vector.replicate _ 0 := rfl
@[simp] theorem State.hardwareReset_buf : s.hardwareReset.buf = [] := rfl

/-! ### ZERO: each field under the mask bit that clears it (40_control_and_data.md R105) -/

variable (mask8 : Byte)

@[simp] theorem State.zeroed_cfg : (s.zeroed mask8).cfg = s.cfg := by
  simp only [State.zeroed, State.onBit, apply_ite State.cfg, State.setMk_cfg, State.setSalt_cfg, State.setDk_cfg,
    State.setSbox_cfg, State.setH_cfg, State.setDec_cfg, State.setBuf_cfg, State.setBlen_cfg, State.setArg_cfg,
    State.setDout_cfg, ite_self]
@[simp] theorem State.zeroed_prog : (s.zeroed mask8).prog = s.prog := by
  simp only [State.zeroed, State.onBit, apply_ite State.prog, State.setMk_prog, State.setSalt_prog, State.setDk_prog,
    State.setSbox_prog, State.setH_prog, State.setDec_prog, State.setBuf_prog, State.setBlen_prog, State.setArg_prog,
    State.setDout_prog, ite_self]
@[simp] theorem State.zeroed_k : (s.zeroed mask8).k = s.k := by
  simp only [State.zeroed, State.onBit, apply_ite State.k, State.setMk_k, State.setSalt_k, State.setDk_k,
    State.setSbox_k, State.setH_k, State.setDec_k, State.setBuf_k, State.setBlen_k, State.setArg_k,
    State.setDout_k, ite_self]
@[simp] theorem State.zeroed_arg : (s.zeroed mask8).arg = if mask8.getLsbD 7 then 0 else s.arg := by
  simp only [State.zeroed, State.onBit, apply_ite State.arg, State.setMk_arg, State.setSalt_arg, State.setDk_arg,
    State.setSbox_arg, State.setH_arg, State.setDec_arg, State.setBuf_arg, State.setBlen_arg, State.setArg_arg,
    State.setDout_arg, ite_self]
@[simp] theorem State.zeroed_dout : (s.zeroed mask8).dout = if mask8.getLsbD 7 then 0 else s.dout := by
  simp only [State.zeroed, State.onBit, apply_ite State.dout, State.setMk_dout, State.setSalt_dout, State.setDk_dout,
    State.setSbox_dout, State.setH_dout, State.setDec_dout, State.setBuf_dout, State.setBlen_dout,
    State.setDout_dout, ite_self]
@[simp] theorem State.zeroed_cidx : (s.zeroed mask8).cidx = s.cidx := by
  simp only [State.zeroed, State.onBit, apply_ite State.cidx, State.setMk_cidx, State.setSalt_cidx, State.setDk_cidx,
    State.setSbox_cidx, State.setH_cidx, State.setDec_cidx, State.setBuf_cidx, State.setBlen_cidx, State.setArg_cidx,
    State.setDout_cidx, ite_self]
@[simp] theorem State.zeroed_h : (s.zeroed mask8).h = if mask8.getLsbD 4 then hashInit else s.h := by
  simp only [State.zeroed, State.onBit, apply_ite State.h, State.setMk_h, State.setSalt_h, State.setDk_h,
    State.setSbox_h, State.setH_h, State.setDec_h, State.setBuf_h, State.setBlen_h, State.setArg_h,
    State.setDout_h, ite_self]
@[simp] theorem State.zeroed_dec : (s.zeroed mask8).dec = if mask8.getLsbD 5 then false else s.dec := by
  simp only [State.zeroed, State.onBit, apply_ite State.dec, State.setMk_dec, State.setSalt_dec, State.setDk_dec,
    State.setSbox_dec, State.setH_dec, State.setDec_dec, State.setBuf_dec, State.setBlen_dec, State.setArg_dec,
    State.setDout_dec, ite_self]
@[simp] theorem State.zeroed_mkv : (s.zeroed mask8).mkv = if mask8.getLsbD 0 then false else s.mkv := by
  simp only [State.zeroed, State.onBit, apply_ite State.mkv, State.setMk_mkv, State.setSalt_mkv, State.setDk_mkv,
    State.setSbox_mkv, State.setH_mkv, State.setDec_mkv, State.setBuf_mkv, State.setBlen_mkv, State.setArg_mkv,
    State.setDout_mkv, ite_self]
@[simp] theorem State.zeroed_saltv : (s.zeroed mask8).saltv = if mask8.getLsbD 1 then 0 else s.saltv := by
  simp only [State.zeroed, State.onBit, apply_ite State.saltv, State.setMk_saltv, State.setSalt_saltv, State.setDk_saltv,
    State.setSbox_saltv, State.setH_saltv, State.setDec_saltv, State.setBuf_saltv, State.setBlen_saltv, State.setArg_saltv,
    State.setDout_saltv, ite_self]
@[simp] theorem State.zeroed_dkv : (s.zeroed mask8).dkv = if mask8.getLsbD 2 then false else s.dkv := by
  simp only [State.zeroed, State.onBit, apply_ite State.dkv, State.setMk_dkv, State.setSalt_dkv, State.setDk_dkv,
    State.setSbox_dkv, State.setH_dkv, State.setDec_dkv, State.setBuf_dkv, State.setBlen_dkv, State.setArg_dkv,
    State.setDout_dkv, ite_self]
@[simp] theorem State.zeroed_sbv : (s.zeroed mask8).sbv = if mask8.getLsbD 3 then false else s.sbv := by
  simp only [State.zeroed, State.onBit, apply_ite State.sbv, State.setMk_sbv, State.setSalt_sbv, State.setDk_sbv,
    State.setSbox_sbv, State.setH_sbv, State.setDec_sbv, State.setBuf_sbv, State.setBlen_sbv, State.setArg_sbv,
    State.setDout_sbv, ite_self]
@[simp] theorem State.zeroed_flt : (s.zeroed mask8).flt = s.flt := by
  simp only [State.zeroed, State.onBit, apply_ite State.flt, State.setMk_flt, State.setSalt_flt, State.setDk_flt,
    State.setSbox_flt, State.setH_flt, State.setDec_flt, State.setBuf_flt, State.setBlen_flt, State.setArg_flt,
    State.setDout_flt, ite_self]
@[simp] theorem State.zeroed_cause : (s.zeroed mask8).cause = s.cause := by
  simp only [State.zeroed, State.onBit, apply_ite State.cause, State.setMk_cause, State.setSalt_cause, State.setDk_cause,
    State.setSbox_cause, State.setH_cause, State.setDec_cause, State.setBuf_cause, State.setBlen_cause, State.setArg_cause,
    State.setDout_cause, ite_self]
@[simp] theorem State.zeroed_ecmd : (s.zeroed mask8).ecmd = s.ecmd := by
  simp only [State.zeroed, State.onBit, apply_ite State.ecmd, State.setMk_ecmd, State.setSalt_ecmd, State.setDk_ecmd,
    State.setSbox_ecmd, State.setH_ecmd, State.setDec_ecmd, State.setBuf_ecmd, State.setBlen_ecmd, State.setArg_ecmd,
    State.setDout_ecmd, ite_self]
@[simp] theorem State.zeroed_blen : (s.zeroed mask8).blen = if mask8.getLsbD 6 then 0 else s.blen := by
  simp only [State.zeroed, State.onBit, apply_ite State.blen, State.setMk_blen, State.setSalt_blen, State.setDk_blen,
    State.setSbox_blen, State.setH_blen, State.setDec_blen, State.setBlen_blen, State.setArg_blen,
    State.setDout_blen, ite_self]
@[simp] theorem State.zeroed_dklen : (s.zeroed mask8).dklen = if mask8.getLsbD 2 then 0 else s.dklen := by
  simp only [State.zeroed, State.onBit, apply_ite State.dklen, State.setMk_dklen, State.setSalt_dklen, State.setDk_dklen,
    State.setSbox_dklen, State.setH_dklen, State.setDec_dklen, State.setBuf_dklen, State.setBlen_dklen, State.setArg_dklen,
    State.setDout_dklen, ite_self]
@[simp] theorem State.zeroed_mkey : (s.zeroed mask8).mkey = if mask8.getLsbD 0 then Vector.replicate _ 0 else s.mkey := by
  simp only [State.zeroed, State.onBit, apply_ite State.mkey, State.setMk_mkey, State.setSalt_mkey, State.setDk_mkey,
    State.setSbox_mkey, State.setH_mkey, State.setDec_mkey, State.setBuf_mkey, State.setBlen_mkey, State.setArg_mkey,
    State.setDout_mkey, ite_self]
@[simp] theorem State.zeroed_salt : (s.zeroed mask8).salt = if mask8.getLsbD 1 then Vector.replicate _ 0 else s.salt := by
  simp only [State.zeroed, State.onBit, apply_ite State.salt, State.setMk_salt, State.setSalt_salt, State.setDk_salt,
    State.setSbox_salt, State.setH_salt, State.setDec_salt, State.setBuf_salt, State.setBlen_salt, State.setArg_salt,
    State.setDout_salt, ite_self]
@[simp] theorem State.zeroed_dk : (s.zeroed mask8).dk = if mask8.getLsbD 2 then [] else s.dk := by
  simp only [State.zeroed, State.onBit, apply_ite State.dk, State.setMk_dk, State.setSalt_dk, State.setDk_dk,
    State.setSbox_dk, State.setH_dk, State.setDec_dk, State.setBuf_dk, State.setBlen_dk, State.setArg_dk,
    State.setDout_dk, ite_self]
@[simp] theorem State.zeroed_sbox0 : (s.zeroed mask8).sbox0 = if mask8.getLsbD 3 then Vector.replicate _ 0 else s.sbox0 := by
  simp only [State.zeroed, State.onBit, apply_ite State.sbox0, State.setMk_sbox0, State.setSalt_sbox0, State.setDk_sbox0,
    State.setSbox_sbox0, State.setH_sbox0, State.setDec_sbox0, State.setBuf_sbox0, State.setBlen_sbox0, State.setArg_sbox0,
    State.setDout_sbox0, ite_self]
@[simp] theorem State.zeroed_buf : (s.zeroed mask8).buf = if mask8.getLsbD 6 then [] else s.buf := by
  simp only [State.zeroed, State.onBit, apply_ite State.buf, State.setMk_buf, State.setSalt_buf, State.setDk_buf,
    State.setSbox_buf, State.setH_buf, State.setDec_buf, State.setBuf_buf, State.setBlen_buf, State.setArg_buf,
    State.setDout_buf, ite_self]

end Sys2Proof.Machine
end

