-- ==== Sys2Proof/Laws/Envelope.lean ====
section
/-! SUPPORT. What the shared operations of the envelope answer (40_control_and_data.md R106), and one lemma
per command that says once everything it can do. -/

namespace Sys2Proof.Machine

variable {s t : State}

theorem next_eq_next {u : State} : (Host.Outcome.next u : Result) = .next t ↔ t = u := by
  rw [Host.Outcome.next.injEq]
  exact eq_comm

theorem complete_next : complete s = .next t ↔ t = s.countCommand := next_eq_next

theorem raiseFault_next {c : Cause} {w : Word} : raiseFault c w s = .next t ↔ t = s.recordFault c w :=
  next_eq_next

theorem unlessFaulted_normal (h : s.flt = false) (r : Result) : unlessFaulted s r = r := by
  simp [unlessFaulted, h]

theorem unlessFaulted_faulted (h : s.flt = true) (r : Result) : unlessFaulted s r = .next s := by
  simp [unlessFaulted, h]

/-- The envelope answers `next t` in two ways: the command is ignored, or its own rule answers. -/
theorem unlessFaulted_next {r : Result} :
    unlessFaulted s r = .next t ↔ (s.flt = true ∧ t = s) ∨ (s.flt = false ∧ r = .next t) := by
  cases h : s.flt <;> simp [unlessFaulted, h, eq_comm (a := s)]

/-- A faulted engine ignores an illegal word, a normal one takes cause 1 (R201, R206). -/
theorem presentIllegal_next {w : Word} :
    presentIllegal w s = .next t ↔
      (s.flt = true ∧ t = s) ∨ (s.flt = false ∧ t = s.recordFault .illegalCommand w) := by
  simp [presentIllegal, unlessFaulted_next, raiseFault_next]

theorem execNop_next : execNop s = .next t ↔
    (s.flt = true ∧ t = s) ∨ (s.flt = false ∧ t = s.countCommand) := by
  simp [execNop, unlessFaulted_next, complete_next]

theorem execSreset_next : execSreset s = .next t ↔ t = s.hardwareReset := by
  exact next_eq_next

theorem execArglo_next {v : Half} : execArglo v s = .next t ↔
    (s.flt = true ∧ t = s) ∨ (s.flt = false ∧ t = (s.setArg (lowOperand v)).countCommand) := by
  simp [execArglo, unlessFaulted_next, complete_next]

theorem execArghi_next {v : Half} : execArghi v s = .next t ↔
    (s.flt = true ∧ t = s) ∨ (s.flt = false ∧ t = (s.setArg (highOperand v s.arg)).countCommand) := by
  simp [execArghi, unlessFaulted_next, complete_next]

/-- A selector is legal exactly when it names a register (R34). -/
theorem selected_none_iff (s : State) (sel8 : Byte) : s.selected sel8 = none ↔ rdSelectorLegal sel8 = false := by
  unfold State.selected rdSelectorLegal
  split <;> simp_all
  omega

theorem execRd_next {sel8 : Byte} : execRd sel8 s = .next t ↔
    (s.selected sel8 = none ∧ s.flt = true ∧ t = s) ∨
    (s.selected sel8 = none ∧ s.flt = false ∧ t = s.recordFault .illegalCommand (encode (.rd sel8))) ∨
    (∃ v, s.selected sel8 = some v ∧ s.flt = true ∧ t = s.setDout v) ∨
    (∃ v, s.selected sel8 = some v ∧ s.flt = false ∧ t = (s.setDout v).countCommand) := by
  unfold execRd
  cases s.selected sel8 with
  | none => simp [presentIllegal_next]
  | some v => cases s.flt <;> simp [complete_next, eq_comm (b := t)]

theorem execZero_next {m : Byte} : execZero m s = .next t ↔
    (s.flt = true ∧ t = s) ∨ (s.flt = false ∧ t = (s.zeroed m).countCommand) := by
  simp [execZero, unlessFaulted_next, complete_next]

theorem execSetblen_next : execSetblen s = .next t ↔
    (s.flt = true ∧ t = s) ∨
    (s.flt = false ∧ s.cfg.bufSize < s.arg.toNat ∧ t = s.recordFault .length (encode .setblen)) ∨
    (s.flt = false ∧ s.arg.toNat ≤ s.cfg.bufSize ∧ t = (s.setBlen s.arg).countCommand) := by
  rcases Nat.lt_or_ge (s.cfg.bufSize) (s.arg.toNat) with h | h <;>
    simp [execSetblen, unlessFaulted_next, complete_next, raiseFault_next, h, Nat.not_lt.mpr, Nat.not_le.mpr]

theorem argInBuf_iff : s.argInBuf = true ↔ s.arg.toNat < s.cfg.bufSize := by
  simp [State.argInBuf]

theorem execBwr_next {v : Byte} : execBwr v s = .next t ↔
    (s.flt = true ∧ t = s) ∨
    (s.flt = false ∧ s.cfg.bufSize ≤ s.arg.toNat ∧ t = s.recordFault .bufAddress (encode (.bwr v))) ∨
    (s.flt = false ∧ s.arg.toNat < s.cfg.bufSize ∧
      t = (s.setBuf (s.buf.write s.arg.toNat v)).stepArg.countCommand) := by
  rcases Nat.lt_or_ge (s.arg.toNat) (s.cfg.bufSize) with h | h <;>
    simp [execBwr, unlessFaulted_next, complete_next, raiseFault_next, argInBuf_iff, h, Nat.not_lt.mpr, Nat.not_le.mpr]

theorem execBrd_next : execBrd s = .next t ↔
    (s.flt = true ∧ t = s) ∨
    (s.flt = false ∧ s.cfg.bufSize ≤ s.arg.toNat ∧ t = s.recordFault .bufAddress (encode .brd)) ∨
    (s.flt = false ∧ s.arg.toNat < s.cfg.bufSize ∧
      t = (s.setDout ((s.buf.read s.arg.toNat).setWidth 32)).stepArg.countCommand) := by
  rcases Nat.lt_or_ge (s.arg.toNat) (s.cfg.bufSize) with h | h <;>
    simp [execBrd, unlessFaulted_next, complete_next, raiseFault_next, argInBuf_iff, h, Nat.not_lt.mpr, Nat.not_le.mpr]

theorem execSaltw_next {n : BitVec 3} {v : Byte} : execSaltw n v s = .next t ↔
    (s.flt = true ∧ t = s) ∨
    (s.flt = false ∧
      t = (s.setSalt (s.salt.set n.toNat v n.isLt) (s.saltv ||| 1#8 <<< n.toNat)).countCommand) := by
  simp [execSaltw, unlessFaulted_next, complete_next]

theorem execHinit_next : execHinit s = .next t ↔
    (s.flt = true ∧ t = s) ∨ (s.flt = false ∧ t = (s.setH hashInit).countCommand) := by
  simp [execHinit, unlessFaulted_next, complete_next]

theorem execHbyte_next {v : Byte} : execHbyte v s = .next t ↔
    (s.flt = true ∧ t = s) ∨ (s.flt = false ∧ t = (s.setH (hstep s.h v)).countCommand) := by
  simp [execHbyte, unlessFaulted_next, complete_next]

theorem execOracle_next : execOracle s = .next t ↔
    (s.flt = true ∧ t = s) ∨
    (s.flt = false ∧ t = (s.setDec (oracleOf s.cfg.secret s.arg)).countCommand) := by
  simp [execOracle, unlessFaulted_next, complete_next]

theorem execMkrec_next : execMkrec s = .next t ↔
    (s.flt = true ∧ t = s) ∨ (s.flt = false ∧ t = (s.setMk (masterKey s.cfg) true).countCommand) := by
  simp [execMkrec, unlessFaulted_next, complete_next]

theorem execKdf_next : execKdf s = .next t ↔
    (s.flt = true ∧ t = s) ∨
    (s.flt = false ∧ (s.mkv = false ∨ s.saltPartial = true) ∧
      t = s.recordFault .uninitOperand (encode .kdf)) ∨
    (s.flt = false ∧ s.mkv = true ∧ s.saltPartial = false ∧ s.cfg.dkMax < s.arg.toNat ∧
      t = s.recordFault .length (encode .kdf)) ∨
    (s.flt = false ∧ s.mkv = true ∧ s.saltPartial = false ∧ s.arg.toNat ≤ s.cfg.dkMax ∧
      t = (s.setDk (kdfn s.mkey.toList s.saltOperand s.arg.toNat) s.arg true).countCommand) := by
  rcases Nat.lt_or_ge s.cfg.dkMax s.arg.toNat with h | h <;> cases hm : s.mkv <;>
    cases hp : s.saltPartial <;>
    simp [execKdf, unlessFaulted_next, complete_next, raiseFault_next, h, hm, hp, Nat.not_lt.mpr, Nat.not_le.mpr]

theorem execSbinit_next : execSbinit s = .next t ↔
    (s.flt = true ∧ t = s) ∨
    (s.flt = false ∧ s.dkv = false ∧ t = s.recordFault .uninitOperand (encode .sbinit)) ∨
    (s.flt = false ∧ s.dkv = true ∧
      t = (s.setSbox (sboxInit s.dk (sboxDecision s.cfg)) true).countCommand) := by
  cases hd : s.dkv <;>
    simp [execSbinit, unlessFaulted_next, complete_next, raiseFault_next, hd]

theorem execCrypt_next : execCrypt s = .next t ↔
    (s.flt = true ∧ t = s) ∨
    (s.flt = false ∧ s.sbv = false ∧ t = s.recordFault .uninitOperand (encode .crypt)) ∨
    (s.flt = false ∧ s.sbv = true ∧ s.blen.toNat ≤ s.cfg.bufSize ∧
      t = (s.setBuf (s.buf.writeFrom 0
        (cryptBuffer (s.buf.readPrefix s.blen.toNat) s.sbox0 s.cfg.secret))).countCommand) := by
  rcases Nat.lt_or_ge s.cfg.bufSize s.blen.toNat with h | h <;> cases hs : s.sbv <;>
    simp [execCrypt, unlessFaulted_next, complete_next, raiseFault_next, hs, h, Nat.not_lt.mpr, Nat.not_le.mpr]

end Sys2Proof.Machine
end

