-- ==== Sys2Proof/Laws/Functions.lean ====
section
/-! SUPPORT. What every use of the units' functions needs: their lengths, the rotations as library rotations,
the host's presenting of a list in two parts, and what its reading of STATUS tells it. -/

namespace Sys2Proof.Machine

theorem rotl32_eq_rotateLeft (x : Word) (n : Nat) : rotl32 x n = x.rotateLeft n := rfl

theorem rotl8_eq_rotateLeft (x : Byte) (n : Nat) : rotl8 x n = x.rotateLeft n := rfl

theorem rotr8_eq_rotateRight (x : Byte) (n : Nat) : rotr8 x n = x.rotateRight n := rfl

@[simp] theorem kdfn_length (mk : List Byte) (salt : Option (List Byte)) (n : Nat) :
    (kdfn mk salt n).length = n := by
  simp [kdfn]

@[simp] theorem cryptFrom_length (t b : List Byte) (w : Table) (i j : Byte) (pos : Nat) :
    (cryptFrom t b w i j pos).length = b.length := by
  induction b generalizing w i j pos with
  | nil => rfl
  | cons c b ih => simp [cryptFrom, ih]

@[simp] theorem cryptBuffer_length (b : List Byte) (s0 : Table) (t : List Byte) :
    (cryptBuffer b s0 t).length = b.length :=
  cryptFrom_length t b s0 0 0 0

@[simp] theorem keystream_length (n : Nat) (s0 : Table) (t : List Byte) : (keystream n s0 t).length = n := by
  simp [keystream]

/-- A list is presented part by part. -/
theorem presentAll_append (is js : List Instr) {s t : State} (h : presentAll is s = .next t) :
    presentAll (is ++ js) s = presentAll js t := by
  induction is generalizing s with
  | nil => cases h; rfl
  | cons i is ih =>
    simp only [presentAll, List.cons_append] at h ⊢
    split at h
    · exact ih h
    · cases h
    · cases h

/-- One bit of a one-bit word, moved up. -/
theorem bitWord_getLsbD (b : Bool) (n : Nat) : (bitWord b).getLsbD n = (decide (n = 0) && b) := by
  cases b
  · simp [bitWord]
  · rcases n with _ | n <;> simp [bitWord, BitVec.getLsbD_one]

/-- `STATUS.FLT` (10_state.md R29). -/
theorem status_flt (s : State) : s.status.getLsbD 7 = s.flt := by
  simp only [State.status, BitVec.getLsbD_or, BitVec.getLsbD_shiftLeft, BitVec.getLsbD_setWidth, bitWord_getLsbD]
  simp

/-- The host's reading of STATUS tells it whether a fault is recorded, in both states. -/
@[simp] theorem faultRead_eq (s : State) : faultRead s = s.flt := by
  have h : ∃ t, presentWord (encode (.rd 0)) s = .next t ∧ t.dout = s.status := by
    have hw : presentWord (encode (.rd 0)) s =
        if s.flt then .next (s.setDout s.status) else complete (s.setDout s.status) := rfl
    rw [hw]
    split
    · exact ⟨_, rfl, rfl⟩
    · exact ⟨_, rfl, rfl⟩
  obtain ⟨t, ht, hd⟩ := h
  unfold faultRead
  rw [ht]
  dsimp only
  rw [hd, status_flt]

end Sys2Proof.Machine
end

