-- ==== Sys2Proof/Laws/Memory.lean ====
section
/-! SUPPORT. The buffer memory (20_memory.md R60 to R65): what a read gives after a write, and that every
operation keeps the canonical form and the bound of the addresses. -/

namespace Sys2Proof.Machine

@[simp] theorem Memory.read_nil (a : Nat) : Memory.read [] a = 0 := rfl

theorem Memory.read_cons (c : Host.Cell) (m : Memory) (a : Nat) :
    Memory.read (c :: m) a = if c.1 = a then c.2 else Memory.read m a := rfl

/-- An address that is not listed reads as the reset value. -/
theorem Memory.read_of_not_listed {m : Memory} {a : Nat} (h : ∀ c ∈ m, c.1 ≠ a) : m.read a = 0 := by
  induction m with
  | nil => rfl
  | cons c m ih =>
    rw [Memory.read_cons, if_neg (h c (by simp)), ih fun d hd => h d (by simp [hd])]

theorem Memory.wf_tail {c : Host.Cell} {m : Memory} (h : Memory.wf (c :: m)) : m.wf :=
  ⟨h.1.of_cons, fun d hd => h.2 d (List.mem_cons_of_mem _ hd)⟩

theorem Memory.head_lt {c : Host.Cell} {m : Memory} (h : Memory.wf (c :: m)) : ∀ d ∈ m, c.1 < d.1 :=
  (List.pairwise_cons.mp h.1).1

theorem Memory.read_cell_append (a b : Nat) (v : Byte) (m : Memory) :
    (Memory.cell a v ++ m).read b = if a = b ∧ v ≠ 0 then v else m.read b := by
  unfold Memory.cell
  split <;> simp_all [Memory.read_cons]

/-- A write leaves every other address as it was. -/
theorem Memory.read_write_other {m : Memory} {a b : Nat} (v : Byte) (h : a ≠ b) :
    (m.write a v).read b = m.read b := by
  induction m with
  | nil => simpa [Memory.write, h] using Memory.read_cell_append a b v []
  | cons c m ih =>
    unfold Memory.write
    split_ifs with h₁ h₂
    · simp [Memory.read_cell_append, h]
    · subst h₂
      simp [Memory.read_cell_append, Memory.read_cons, h]
    · simp [Memory.read_cons, ih]

/-- A read after a write to the same address gives the value written. -/
theorem Memory.read_write_same {m : Memory} (hm : m.wf) (a : Nat) (v : Byte) :
    (m.write a v).read a = v := by
  induction m with
  | nil =>
    have := Memory.read_cell_append a a v []
    by_cases hv : v = 0 <;> simp_all [Memory.write]
  | cons c m ih =>
    unfold Memory.write
    split_ifs with h₁ h₂
    · rw [Memory.read_cell_append]
      split_ifs with hv
      · rfl
      · have hv : v = 0 := by simpa using hv
        rw [hv]
        refine Memory.read_of_not_listed fun d hd => ?_
        rcases List.mem_cons.mp hd with rfl | hd
        · omega
        · have := Memory.head_lt hm d hd
          omega
    · subst h₂
      rw [Memory.read_cell_append]
      split_ifs with hv
      · rfl
      · have hv : v = 0 := by simpa using hv
        rw [hv]
        refine Memory.read_of_not_listed fun d hd => ?_
        have := Memory.head_lt hm d hd
        omega
    · rw [Memory.read_cons, if_neg (Ne.symm h₂), ih (Memory.wf_tail hm)]

/-- Every entry after a write is one from before or the one written. -/
theorem Memory.mem_write {m : Memory} {a : Nat} {v : Byte} {c : Host.Cell} (h : c ∈ m.write a v) :
    c ∈ m ∨ (c = (a, v) ∧ v ≠ 0) := by
  have hcell : ∀ {d : Host.Cell}, d ∈ Memory.cell a v → d = (a, v) ∧ v ≠ 0 := by
    intro d hd
    unfold Memory.cell at hd
    split at hd <;> simp_all
  induction m with
  | nil => exact .inr (hcell h)
  | cons d m ih =>
    unfold Memory.write at h
    split_ifs at h
    · rcases List.mem_append.mp h with h | h
      · exact .inr (hcell h)
      · exact .inl h
    · rcases List.mem_append.mp h with h | h
      · exact .inr (hcell h)
      · exact .inl (by simp [h])
    · rcases List.mem_cons.mp h with h | h
      · exact .inl (by simp [h])
      · rcases ih h with h | h
        · exact .inl (by simp [h])
        · exact .inr h

theorem Memory.cell_append_wf {a : Nat} {v : Byte} {m : Memory} (hm : m.wf) (h : ∀ c ∈ m, a < c.1) :
    (Memory.cell a v ++ m).wf := by
  unfold Memory.cell
  split_ifs with hv
  · simpa using hm
  · refine ⟨List.pairwise_cons.mpr ⟨h, hm.1⟩, fun c hc => ?_⟩
    rcases List.mem_cons.mp hc with rfl | hc
    · exact hv
    · exact hm.2 c hc

/-- A write keeps the canonical form. -/
theorem Memory.write_wf {m : Memory} (hm : m.wf) (a : Nat) (v : Byte) : (m.write a v).wf := by
  induction m with
  | nil => simpa [Memory.write] using Memory.cell_append_wf (v := v) hm (a := a) (by simp)
  | cons c m ih =>
    have hlt := Memory.head_lt hm
    unfold Memory.write
    split_ifs with h₁ h₂
    · refine Memory.cell_append_wf hm fun d hd => ?_
      rcases List.mem_cons.mp hd with rfl | hd
      · exact h₁
      · exact h₁.trans (hlt d hd)
    · exact Memory.cell_append_wf (Memory.wf_tail hm) fun d hd => h₂ ▸ hlt d hd
    · have hw := ih (Memory.wf_tail hm)
      refine ⟨List.pairwise_cons.mpr ⟨fun d hd => ?_, hw.1⟩, fun d hd => ?_⟩
      · rcases Memory.mem_write hd with hd | ⟨rfl, -⟩
        · exact hlt d hd
        · show c.1 < a
          omega
      · rcases List.mem_cons.mp hd with rfl | hd
        · exact hm.2 d (by simp)
        · exact hw.2 d hd

/-- A write below a bound keeps the addresses below it. -/
theorem Memory.write_below {n : Nat} {m : Memory} (hm : Memory.below n m) {a : Nat} (h : a < n) (v : Byte) :
    Memory.below n (m.write a v) := by
  intro c hc
  rcases Memory.mem_write hc with hc | ⟨rfl, -⟩
  · exact hm c hc
  · exact h

/-! ### Runs of bytes -/

@[simp] theorem Memory.readPrefix_length (m : Memory) (n : Nat) : (m.readPrefix n).length = n := by
  simp [Memory.readPrefix]

@[simp] theorem Memory.readPrefix_getElem (m : Memory) (n a : Nat) (h : a < (m.readPrefix n).length) :
    (m.readPrefix n)[a] = m.read a := by
  simp [Memory.readPrefix]

theorem Memory.writeFrom_wf {m : Memory} (hm : m.wf) (a : Nat) (bs : List Byte) : (m.writeFrom a bs).wf := by
  induction bs generalizing m a with
  | nil => exact hm
  | cons b bs ih => exact ih (Memory.write_wf hm a b) (a + 1)

theorem Memory.writeFrom_below {n : Nat} {m : Memory} (hm : Memory.below n m) {a : Nat} {bs : List Byte}
    (h : a + bs.length ≤ n) : Memory.below n (m.writeFrom a bs) := by
  induction bs generalizing m a with
  | nil => exact hm
  | cons b bs ih =>
    rw [List.length_cons] at h
    exact ih (Memory.write_below hm (by omega) b) (by omega)

/-- A run of writes leaves every address outside it as it was. -/
theorem Memory.read_writeFrom_other {m : Memory} {a b : Nat} {bs : List Byte}
    (h : b < a ∨ a + bs.length ≤ b) : (m.writeFrom a bs).read b = m.read b := by
  induction bs generalizing m a with
  | nil => rfl
  | cons c bs ih =>
    rw [List.length_cons] at h
    show (Memory.writeFrom (m.write a c) (a + 1) bs).read b = _
    rw [ih (by omega), Memory.read_write_other c (by omega)]

/-- Each address of a run of writes reads the byte written there. -/
theorem Memory.read_writeFrom {m : Memory} (hm : m.wf) {a : Nat} {bs : List Byte} {n : Nat}
    (h : n < bs.length) : (m.writeFrom a bs).read (a + n) = bs[n] := by
  induction bs generalizing m a n with
  | nil => simp at h
  | cons c bs ih =>
    show (Memory.writeFrom (m.write a c) (a + 1) bs).read (a + n) = _
    cases n with
    | zero =>
      rw [Memory.read_writeFrom_other (by omega), Nat.add_zero, Memory.read_write_same hm]
      rfl
    | succ n =>
      have := ih (Memory.write_wf hm a c) (a := a + 1) (n := n) (by simpa using h)
      rw [show a + (n + 1) = a + 1 + n by omega, this]
      rfl

/-- Memories in canonical form that read alike are equal. -/
theorem Memory.eq_of_read_eq {m n : Memory} (hm : m.wf) (hn : n.wf) (h : ∀ a, m.read a = n.read a) :
    m = n := by
  induction m generalizing n with
  | nil =>
    cases n with
    | nil => rfl
    | cons d n =>
      have := h d.1
      rw [Memory.read_cons, if_pos rfl] at this
      exact absurd this.symm (hn.2 d (by simp))
  | cons c m ih =>
    cases n with
    | nil =>
      have := h c.1
      rw [Memory.read_cons, if_pos rfl] at this
      exact absurd this (hm.2 c (by simp))
    | cons d n =>
      have hc := h c.1
      have hd := h d.1
      have hcd : c.1 = d.1 := by
        by_contra hne
        rcases Nat.lt_or_gt_of_ne hne with hlt | hlt
        · rw [Memory.read_cons, if_pos rfl, Memory.read_of_not_listed] at hc
          · exact hm.2 c (by simp) hc
          · intro e he
            rcases List.mem_cons.mp he with rfl | he
            · omega
            · have := Memory.head_lt hn e he
              omega
        · rw [Memory.read_cons (c := d), if_pos rfl, Memory.read_of_not_listed] at hd
          · exact hn.2 d (by simp) hd.symm
          · intro e he
            rcases List.mem_cons.mp he with rfl | he
            · omega
            · have := Memory.head_lt hm e he
              omega
      have hval : c.2 = d.2 := by
        rw [Memory.read_cons, Memory.read_cons, if_pos rfl, if_pos hcd.symm] at hc
        exact hc
      have htail : m = n := by
        refine ih (Memory.wf_tail hm) (Memory.wf_tail hn) fun a => ?_
        have ha := h a
        rw [Memory.read_cons, Memory.read_cons] at ha
        by_cases hca : c.1 = a
        · rw [Memory.read_of_not_listed, Memory.read_of_not_listed]
          · intro e he
            have := Memory.head_lt hn e he
            omega
          · intro e he
            have := Memory.head_lt hm e he
            omega
        · rw [if_neg hca, if_neg (fun hda => hca (hcd.trans hda))] at ha
          exact ha
      rw [htail, Prod.ext hcd hval]

end Sys2Proof.Machine
end

