-- ==== Sys2Proof/Laws/PerInstr.lean ====
section
/-! SUPPORT. Statements made per instruction, about the instruction as syntax. -/

namespace Sys2Proof.Laws.EncodeFitsTable

/-- The word of a command carries the fixed bits of its row of spec/opcode_table.json (30_encoding.md
R87), for every value of its fields. -/
def Statement (i : Instr) : Prop := encode i &&& i.op.tableMask = i.op.tableMatch

/-- Format B under its mask. -/
theorem format_b (c imm8 : Byte) : (c ++ 0#16 ++ imm8 : Word) &&& (0xFFFFFF#24 ++ 0#8) = c ++ 0#16 ++ 0#8 := by
  rw [BitVec.and_append, BitVec.and_zero, show (0xFFFFFF#24) = BitVec.allOnes 24 from rfl, BitVec.and_allOnes]

/-- Format H under its mask. -/
theorem format_h (c : Byte) (imm16 : Half) :
    (c ++ 0#8 ++ imm16 : Word) &&& (0xFFFF#16 ++ 0#16) = c ++ 0#8 ++ 0#16 := by
  rw [BitVec.and_append, BitVec.and_zero, show (0xFFFF#16) = BitVec.allOnes 16 from rfl, BitVec.and_allOnes]

/-- Format S under its mask. -/
theorem format_s (c : Byte) (idx3 : BitVec 3) (imm8 : Byte) :
    (c ++ 0#13 ++ idx3 ++ imm8 : Word) &&& (0x1FFFFF#21 ++ 0#3 ++ 0#8) = c ++ 0#13 ++ 0#3 ++ 0#8 := by
  rw [BitVec.and_append, BitVec.and_append, BitVec.and_zero, BitVec.and_zero,
    show (0x1FFFFF#21) = BitVec.allOnes 21 from rfl, BitVec.and_allOnes]

theorem nop : Statement .nop := rfl
theorem sreset : Statement .sreset := rfl
theorem arglo (imm16 : Half) : Statement (.arglo imm16) := format_h 0x02 imm16
theorem arghi (imm16 : Half) : Statement (.arghi imm16) := format_h 0x03 imm16
theorem rd (sel8 : Byte) : Statement (.rd sel8) := format_b 0x04 sel8
theorem zero (mask8 : Byte) : Statement (.zero mask8) := format_b 0x05 mask8
theorem setblen : Statement .setblen := rfl
theorem bwr (imm8 : Byte) : Statement (.bwr imm8) := format_b 0x11 imm8
theorem brd : Statement .brd := rfl
theorem saltw (idx3 : BitVec 3) (imm8 : Byte) : Statement (.saltw idx3 imm8) := format_s 0x13 idx3 imm8
theorem hinit : Statement .hinit := rfl
theorem hbyte (imm8 : Byte) : Statement (.hbyte imm8) := format_b 0x21 imm8
theorem oracle : Statement .oracle := rfl
theorem mkrec : Statement .mkrec := rfl
theorem kdf : Statement .kdf := rfl
theorem sbinit : Statement .sbinit := rfl
theorem crypt : Statement .crypt := rfl

end Sys2Proof.Laws.EncodeFitsTable
end

