-- ==== Sys2Proof/Laws/Tables.lean ====
section
/-! SUPPORT. Tables of 256 bytes: reading after a swap, and that swaps keep a permutation (45_sbox_init.md
R165, 46_keystream.md R175). -/

namespace Sys2Proof.Machine

theorem Table.get_swapAt (t : Table) (a b x : Byte) :
    (t.swapAt a b).get x = if x = a then t.get b else if x = b then t.get a else t.get x := by
  have h : ∀ y z : Byte, y.toNat = z.toNat ↔ y = z := fun y z => BitVec.toNat_inj
  simp [Table.get, Table.swapAt, Vector.getElem_swap, h]

theorem Table.identity_get (x : Byte) : Table.identity.get x = x := by
  simp [Table.get, Table.identity]

/-- The identity table has each value once (R160 starts from it). -/
theorem Table.identity_isPermutation : Table.identity.IsPermutation := by
  intro v
  have hl : Table.identity.toList = (List.finRange 256).map fun x => BitVec.ofNat 8 x.val := by
    unfold Table.identity
    rw [Vector.toList_ofFn]
    exact List.ofFn_eq_map
  have hn : ((List.finRange 256).map fun x => BitVec.ofNat 8 x.val).Nodup := by
    refine (List.nodup_finRange 256).map_on fun x _ y _ h => ?_
    have := congrArg BitVec.toNat h
    simp at this
    omega
  rw [hl]
  exact List.count_eq_one_of_mem hn (List.mem_map.mpr ⟨⟨v.toNat, v.isLt⟩, List.mem_finRange _, by simp⟩)

theorem Table.isPermutation_swapAt {t : Table} (h : t.IsPermutation) (a b : Byte) :
    (t.swapAt a b).IsPermutation := by
  intro v
  have hp : (t.swapAt a b).toList.Perm t.toList := by
    have := (Vector.swap_perm (xs := t) a.isLt b.isLt).toArray
    exact this.toList
  rw [hp.count_eq]
  exact h v

end Sys2Proof.Machine
end

