-- ==== Sys2Proof/Tests/Slice0.lean ====
section
/-! SUPPORT. Tests: well-formedness, decoding of words written out from the encodings of 30_encoding.md, one or
two steps of each command, and for each statement of Certificates/Slice0/Obligations.lean with hypotheses a
state and operands that meet them. Expected values are those of 95_test_vectors.md (its numbers V10 to V51 are
named) or are written out by hand from the rule named; 95_test_vectors.md's values are derived from the rules,
not measured (its own opening). -/

namespace Sys2Proof.Tests

open Sys2Proof.Machine

/-! ### States to test on -/

/-- The test configuration of 95_test_vectors.md with a given `SECRET`. -/
def config (secret : List Byte) : Config where
  obf := #v[0x00, 0x01, 0x02, 0x03, 0x04, 0x05, 0x06, 0x07, 0x08, 0x09, 0x0A, 0x0B, 0x0C, 0x0D, 0x0E, 0x0F]
  secret := secret
  bufSize := 65536
  dkMax := 512
  bufSize_pos := by decide
  bufSize_le := by decide
  dkMax_ge := by decide

/-- The least capacities rule R6 allows. -/
def smallest : Config where
  obf := (config []).obf
  secret := []
  bufSize := 1
  dkMax := 32
  bufSize_pos := by decide
  bufSize_le := by decide
  dkMax_ge := by decide

/-- The table `TA`. -/
def tableA : List Byte := [0x48, 0x6F, 0x6C, 0x79]

/-- The table `TB`. -/
def tableB : List Byte := [0x10, 0x20, 0x30]

/-- `SALTX`. -/
def saltX : Vector Byte 8 := #v[0x53, 0x41, 0x4C, 0x54, 0x30, 0x30, 0x30, 0x31]

/-- The MasterKey of V15. -/
def keyV15 : Vector Byte 16 :=
  #v[0x5A, 0x52, 0x4A, 0x42, 0x7A, 0x72, 0x6A, 0x62, 0x1A, 0x12, 0x0A, 0x02, 0x3A, 0x32, 0x2A, 0x22]

/-- The DerivedKey of V17. -/
def keyV17 : List Byte :=
  [0xE0, 0x73, 0xCA, 0x5D, 0xBC, 0xCF, 0x86, 0x29, 0x08, 0x9B, 0x52, 0xE5, 0xC4, 0x57, 0x2E, 0xB1,
   0x30, 0x43, 0x1A, 0xAD, 0x8C, 0x1F, 0xD6, 0x79, 0x58, 0xEB, 0xA2, 0x35, 0x14, 0xA7, 0x7E, 0x81]

/-- Right after a reset, with `SECRET = TA`. -/
def fresh : State := State.resetWith (config tableA) [] 0

/-- The same with `SECRET = TB`. -/
def freshB : State := State.resetWith (config tableB) [] 0

/-- The faulted state of program P4 after its word 3. -/
def faulted : State :=
  { fresh with arg := 4, blen := 4, cidx := 3, flt := true, cause := 2, ecmd := 0x60000000 }

/-- With the MasterKey of V15. -/
def keyed : State := { fresh with mkv := true, mkey := keyV15 }

/-- With a whole salt as well. -/
def salted : State := { keyed with saltv := 0xFF, salt := saltX }

/-- With every table and a transform ready, on the identity S-box: the last buffer byte written, `BLEN` at
`BUF_SIZE` and `CIDX` about to wrap. -/
def loaded : State :=
  { salted with
    dkv := true, dk := keyV17, dklen := 32, sbv := true, sbox0 := Table.identity,
    buf := [(3, 0xAB), (65535, 0x01)], blen := 65536, arg := 65536, cidx := 0xFFFFFFFF, dec := true }

/-- A property of the next state, false where there is none. -/
def answers (r : Result) (p : State → Bool) : Bool :=
  match r with
  | .next t => p t
  | .fault _ => false
  | .refused _ => false

/-! ### Well-formedness (R34, R104) -/

theorem test_wf_rd_refuses_selector_7 : (Instr.rd 7).wf = false := by decide
theorem test_wf_rd_refuses_selector_255 : (Instr.rd 255).wf = false := by decide
theorem test_wf_rd_accepts_selector_6 : (Instr.rd 6).wf = true := by decide

/-! ### Decoding, words written bit by bit: opcode byte, reserved field, operand fields (R81, R87) -/

theorem test_decode_nop : decode (0b00000000#8 ++ 0b000000000000000000000000#24) = .ok .nop := by decide
theorem test_decode_sreset : decode (0b00000001#8 ++ 0b000000000000000000000000#24) = .ok .sreset := by decide
theorem test_decode_arglo :
    decode (0b00000010#8 ++ 0b00000000#8 ++ 0b0001001000110100#16) = .ok (.arglo 0x1234) := by decide
theorem test_decode_arghi :
    decode (0b00000011#8 ++ 0b00000000#8 ++ 0b1010010110100101#16) = .ok (.arghi 0xA5A5) := by decide
theorem test_decode_rd :
    decode (0b00000100#8 ++ 0b0000000000000000#16 ++ 0b00000110#8) = .ok (.rd 6) := by decide
theorem test_decode_zero :
    decode (0b00000101#8 ++ 0b0000000000000000#16 ++ 0b10000101#8) = .ok (.zero 0x85) := by decide
theorem test_decode_setblen : decode (0b00010000#8 ++ 0b000000000000000000000000#24) = .ok .setblen := by decide
theorem test_decode_bwr :
    decode (0b00010001#8 ++ 0b0000000000000000#16 ++ 0b10101011#8) = .ok (.bwr 0xAB) := by decide
theorem test_decode_brd : decode (0b00010010#8 ++ 0b000000000000000000000000#24) = .ok .brd := by decide
theorem test_decode_saltw :
    decode (0b00010011#8 ++ 0b0000000000000#13 ++ 0b110#3 ++ 0b01001100#8) = .ok (.saltw 6 0x4C) := by decide
theorem test_decode_hinit : decode (0b00100000#8 ++ 0b000000000000000000000000#24) = .ok .hinit := by decide
theorem test_decode_hbyte :
    decode (0b00100001#8 ++ 0b0000000000000000#16 ++ 0b01100001#8) = .ok (.hbyte 0x61) := by decide
theorem test_decode_oracle : decode (0b00110000#8 ++ 0b000000000000000000000000#24) = .ok .oracle := by decide
theorem test_decode_mkrec : decode (0b01000000#8 ++ 0b000000000000000000000000#24) = .ok .mkrec := by decide
theorem test_decode_kdf : decode (0b01000001#8 ++ 0b000000000000000000000000#24) = .ok .kdf := by decide
theorem test_decode_sbinit : decode (0b01010000#8 ++ 0b000000000000000000000000#24) = .ok .sbinit := by decide
theorem test_decode_crypt : decode (0b01100000#8 ++ 0b000000000000000000000000#24) = .ok .crypt := by decide

/-- The illegal words of V51. -/
theorem test_decode_illegal_words :
    decode 0x00000001 = .error .reservedBits ∧ decode 0x07000000 = .error .unassignedOpcode ∧
    decode 0xFFFFFFFF = .error .unassignedOpcode ∧ decode 0x04000007 = .error .rdSelector ∧
    decode 0x13000800 = .error .reservedBits ∧ decode 0x02010000 = .error .reservedBits := by decide

/-- A stored list holds each word least significant byte first (20_memory.md R62), and a list cut short has no
command. -/
theorem test_decode_stored_bytes :
    decodeBytes [0x4C, 0x02, 0x00, 0x13, 0x20] = .ok (.saltw 2 0x4C, [0x20]) ∧
    decodeBytes [0x00, 0x00, 0x20] = .error .truncated ∧
    decodeTableWord 32 0x1300024C = some (.saltw 2 0x4C) ∧ decodeTableWord 32 0x13000800 = none := by decide

/-! ### The commands -/

theorem test_nop_counts : answers (exec .nop fresh) (fun t => t.cidx == 1 && t.dout == 0) = true := by decide

theorem test_nop_wraps_cidx : answers (exec .nop loaded) (fun t => t.cidx == 0) = true := by decide

/-- Program P4, word 9. -/
theorem test_sreset_leaves_the_faulted_state :
    answers (exec .sreset faulted) (fun t => !t.flt && t.cidx == 0 && t.blen == 0 && t.arg == 0 && t.ecmd == 0)
      = true := by decide

theorem test_sreset_clears_the_stores :
    answers (exec .sreset loaded)
      (fun t => t.dk == [] && t.buf == [] && t.mkey == fresh.mkey && t.salt == fresh.salt && !t.sbv && !t.dec)
        = true := by decide

/-- V50: ARGLO clears the high half. -/
theorem test_arglo_clears_high :
    answers (exec (.arglo 0x0001) { fresh with arg := 0xFFFF0000 }) (fun t => t.arg == 0x00000001) = true := by
  decide

/-- V50. -/
theorem test_arghi_keeps_low :
    answers (exec (.arghi 0xA5A5) { fresh with arg := 0x77771234 }) (fun t => t.arg == 0xA5A51234) = true := by
  decide

/-- Program P4, words 5 to 8: in the faulted state, not counted. -/
theorem test_rd_in_the_faulted_state :
    answers (exec (.rd 0) faulted) (fun t => t.dout == 0x00000280 && t.cidx == 3) = true ∧
    answers (exec (.rd 6) faulted) (fun t => t.dout == 0x60000000) = true ∧
    answers (exec (.rd 3) faulted) (fun t => t.dout == 4) = true := by decide

/-- V50: `RD 5` loads the count before its own. -/
theorem test_rd_cidx_before_its_own_count :
    answers (exec (.rd 5) { fresh with cidx := 1 }) (fun t => t.dout == 1 && t.cidx == 2) = true := by decide

/-- V50: `STATUS` after MKREC, KDF, SBINIT, then after `ZERO MK|DK`. -/
theorem test_zero_mk_dk :
    { loaded with saltv := 0, dec := false }.status = 0x0000000D ∧
    answers (exec (.zero 0x05) { loaded with saltv := 0, dec := false })
      (fun t => t.status == 0x00000008 && t.dklen == 0 && t.dk == [] && t.mkey == Vector.replicate _ 0) = true := by
  decide +kernel

/-- R105: bit 6 clears `BUF` and `BLEN`, bit 7 `ARG` and `DOUT`, and neither touches the hash. -/
theorem test_zero_buf_regs :
    answers (exec (.zero 0xC0) { loaded with h := 7, dout := 9 })
      (fun t => t.buf == [] && t.blen == 0 && t.arg == 0 && t.dout == 0 && t.h == 7 && t.mkv) = true := by
  decide

/-- V51: `BUF_SIZE` itself is a legal length, one more is cause 4. -/
theorem test_setblen_bound :
    answers (exec .setblen { fresh with arg := 0x10000 }) (fun t => t.blen == 0x10000 && !t.flt) = true ∧
    answers (exec .setblen { fresh with arg := 0x10001 })
      (fun t => t.status == 0x00000480 && t.ecmd == 0x10000000 && t.blen == 0) = true := by decide

/-- V50. -/
theorem test_bwr_writes_and_moves_on :
    answers (exec (.bwr 0xAB) { fresh with arg := 3 }) (fun t => t.arg == 4 && t.buf == [(3, 0xAB)]) = true := by
  decide

/-- V51. -/
theorem test_bwr_outside :
    answers (exec (.bwr 0xAA) { fresh with arg := 0x10000, cidx := 2 })
      (fun t => t.status == 0x00000380 && t.ecmd == 0x110000AA && t.cidx == 2 && t.arg == 0x10000) = true := by
  decide

/-- V50: a byte never written reads 0 and `ARG` passes `BUF_SIZE`. -/
theorem test_brd_last_byte :
    answers (exec .brd { fresh with arg := 0xFFFF, dout := 5 }) (fun t => t.dout == 0 && t.arg == 0x00010000) = true ∧
    answers (exec .brd { loaded with arg := 3 }) (fun t => t.dout == 0x000000AB && t.arg == 4) = true := by decide

/-- V51. -/
theorem test_brd_outside :
    answers (exec .brd loaded) (fun t => t.cause == 3 && t.ecmd == 0x12000000 && t.dout == 0) = true := by decide

/-- V50. -/
theorem test_saltw_sets_its_bit :
    answers (exec (.saltw 2 0x4C) fresh)
      (fun t => t.status == 0x00040000 && t.salt == #v[0, 0, 0x4C, 0, 0, 0, 0, 0]) = true := by decide

/-- R110: the last byte completes the salt. -/
theorem test_saltw_completes_the_salt :
    answers (exec (.saltw 7 0x31) { fresh with saltv := 0x7F }) (fun t => t.status == 0x00FF0002) = true := by decide

/-- V50. -/
theorem test_hinit_restarts :
    answers (exec .hinit { fresh with h := 0xE40CCD20 }) (fun t => t.h == 0x811C9DC5) = true := by decide

/-- V11, step by step. -/
theorem test_hbyte_abc :
    answers (exec (.hbyte 0x61) fresh) (fun t => t.h == 0xE40CCD20) = true ∧
    answers (exec (.hbyte 0x62) { fresh with h := 0xE40CCD20 }) (fun t => t.h == 0x42275CC1) = true ∧
    answers (exec (.hbyte 0x63) { fresh with h := 0x42275CC1 }) (fun t => t.h == 0xC5F616F0) = true := by decide

/-- V10, its last rows. -/
theorem test_hstep_corners :
    hstep 0x00000000 0x00 = 0x00000000 ∧ hstep 0xFFFFFFFF 0xFF = 0xFFFE92FE ∧
    hstep 0xFFFFFFFF 0x00 = 0xFEFF0092 := by decide

/-- Program P2. -/
theorem test_oracle_decides :
    answers (exec .oracle fresh) (fun t => t.dec && t.status == 0x00000010) = true ∧
    answers (exec .oracle { fresh with arg := 1, dec := true }) (fun t => !t.dec) = true := by decide

/-- V12 and V13: two strides with a cyclic word, ten strides with rotation by `i mod 32`, and the empty table. -/
theorem test_oracle_accumulators :
    oracleAcc [0x01, 0x02, 0x03, 0x04, 0x05] 0x00000002 = 0xF745A9A0 ∧
    oracleAcc ((List.range 40).map fun n => BitVec.ofNat 8 (0x80 + n)) 0x00000007 = 0xDE76B119 ∧
    oracleAcc [] 0x00001234 = 0xA5A5B791 ∧ oracleAcc tableB 0x00001234 = 0x0575B131 := by decide +kernel

/-- V15. -/
theorem test_mkrec_v15 :
    answers (exec .mkrec fresh) (fun t => t.mkv && t.mkey == keyV15 && t.status == 0x00000001) = true := by decide +kernel

/-- V15 and DOC's one vector, V1. -/
theorem test_reconstruct_bytes :
    obfuscate 0x00 = 0x4B ∧ reconstruct 0x4B = 0x00 ∧ reconstruct 0x80 = 0x5E ∧ obfuscate 0xA5 = 0xFF := by decide

/-- V16, the first four bytes, and V17 whole. -/
theorem test_kdf_with_and_without_salt :
    answers (exec .kdf { salted with arg := 4 })
      (fun t => t.dk == [0x9B, 0x28, 0xE1, 0x76] && t.dklen == 4 && t.dkv) = true ∧
    answers (exec .kdf { keyed with arg := 32 }) (fun t => t.dk == keyV17 && t.dklen == 32) = true := by
  decide +kernel

/-- V51: a partial salt, validity before range, and a length above `DK_MAX`; V18: length 0. -/
theorem test_kdf_faults_in_order :
    answers (exec .kdf { keyed with saltv := 0x01, arg := 4 })
      (fun t => t.status == 0x00010281 && t.ecmd == 0x41000000) = true ∧
    answers (exec .kdf { fresh with arg := 600 }) (fun t => t.status == 0x00000280) = true ∧
    answers (exec .kdf { keyed with arg := 513 }) (fun t => t.status == 0x00000481 && !t.dkv) = true ∧
    answers (exec .kdf keyed) (fun t => t.dkv && t.dk == [] && t.dklen == 0 && !t.flt) = true := by decide

/-- V21 and V20: six iterations with the DerivedKey of V16 (its first six bytes are all they use), both arms. -/
theorem test_sbox_iterations :
    (sboxRun [0x9B, 0x28, 0xE1, 0x76, 0x57, 0xE4] true 6).1.toList.take 8 =
      [0x9B, 0xC4, 0xA7, 0x21, 0x7E, 0x6A, 0x06, 0x07] ∧
    (sboxRun [0x9B, 0x28, 0xE1, 0x76, 0x57, 0xE4] false 6).1.toList.take 8 =
      [0x00, 0x9B, 0x65, 0xB9, 0xFD, 0x6D, 0xE1, 0x07] := by decide +kernel

/-- R163: without a DerivedKey cause 2; an empty one is legal; `DEC` is not touched. -/
theorem test_sbinit_needs_a_key :
    answers (exec .sbinit fresh) (fun t => t.status == 0x00000280 && t.ecmd == 0x50000000) = true ∧
    answers (exec .sbinit { freshB with dkv := true }) (fun t => t.sbv && !t.flt && !t.dec && t.cidx == 1) = true := by
  decide

/-- V30, its first two positions, with the entries of V20's table that they use. -/
theorem test_crypt_two_bytes :
    answers (exec .crypt { fresh with
        sbv := true, blen := 2, buf := [(0, 0x48), (1, 0x6F), (2, 0x6C)],
        sbox0 := (((((fresh.sbox0.set 0x01 0x08).set 0x02 0x2C).set 0x08 0x45).set 0x34 0x9D).set 0x4D 0x80).set
          0xC9 0xB9 })
      (fun t => t.buf == [(0, 0x08), (1, 0x89), (2, 0x6C)] && t.cidx == 1) = true := by decide +kernel

/-- V51 and V33: without an S-box cause 2; with one, `BLEN = 0` changes nothing. -/
theorem test_crypt_corners :
    answers (exec .crypt fresh) (fun t => t.status == 0x00000280 && t.ecmd == 0x60000000) = true ∧
    answers (exec .crypt { loaded with blen := 0 }) (fun t => t.buf == loaded.buf && t.cidx == 0) = true := by decide

/-! ### Rotations (V5) -/

theorem test_rotations :
    rotl32 0x80000001 0 = 0x80000001 ∧ rotl32 0x80000001 13 = 0x00003000 ∧ rotl32 0x80000001 31 = 0xC0000000 ∧
    rotl32 0x12345678 28 = 0x81234567 ∧ rotr8 0x81 0 = 0x81 ∧ rotr8 0x81 1 = 0xC0 ∧ rotr8 0x01 7 = 0x02 ∧
    rotl8 0x81 3 = 0x0C := by decide

/-! ### The host's side -/

/-- V40 as far as its header, with a payload of one byte and one byte after it: R180 to R183. -/
def container : List Byte :=
  [0x43, 0x52, 0x34, 0x46, 0x01, 0xAA, 0xBB, 0xCC, 0x53, 0x41, 0x4C, 0x54, 0x30, 0x30, 0x30, 0x31,
   0x01, 0x00, 0x00, 0x00, 0x08, 0xEE]

theorem test_parse_fields :
    parse container = .ok { version := 0x01, reserved := #v[0xAA, 0xBB, 0xCC], salt := saltX, payload := [0x08] } := by
  decide

/-- V41: too short, wrong magic, a little-endian length of 2^24. -/
theorem test_parse_errors :
    parse (container.take 19) = .error .formatError ∧ parse (container.set 3 0x47) = .error .formatError ∧
    parse ((container.set 16 0x00).set 19 0x01) = .error .formatError := by decide

/-- R185: the first words of program P3, and its last. -/
theorem test_decrypt_list :
    (decryptList saltX [0x08]).take 13 =
      [0x01000000, 0x40000000, 0x13000053, 0x13000141, 0x1300024C, 0x13000354, 0x13000430, 0x13000530,
       0x13000630, 0x13000731, 0x02000020, 0x03000000, 0x41000000] ∧
    (decryptList saltX [0x08]).drop 13 =
      [0x05000001, 0x50000000, 0x05000006, 0x02000000, 0x03000000, 0x11000008, 0x02000001, 0x03000000,
       0x10000000, 0x60000000, 0x05000008, 0x02000000, 0x03000000, 0x12000000] := by decide

/-- R185, R188: after line 14 the host reads `STATUS.FLT` through DOUT (program P4, word 5: 0x00000280). -/
theorem test_host_reads_status : faultRead faulted = true ∧ faultRead fresh = false := by decide

/-- R187: a malformed container is refused before any command. -/
theorem test_host_refuses_format : hostDecrypt faulted (container.take 19) = .error .formatError := by decide

/-- R92 and R94: a comment, a mask by names, an operand that does not fit, a pseudo-instruction. -/
theorem test_assembler :
    assembleLine ['Z', 'E', 'R', 'O', ' ', 'M', 'K', '|', 'D', 'K', ' ', ';', 'x'] = .ok [.zero 0x05] ∧
    assembleLine ['S', 'A', 'L', 'T', 'W', ' ', '8', ',', ' ', '1'] = .error .outOfRange ∧
    assembleLine ['L', 'D', 'A', 'R', 'G', ' ', '0', 'x', '1', '0', '0', '0', '2'] =
      .ok [.arglo 0x0002, .arghi 0x0001] := by decide

/-! ### Witnesses: for each statement with hypotheses, a state and operands that meet them

A command answers its next state by evaluation, so each `exec … = .next …` below is by `rfl`. -/

theorem test_witness_SresetResetsInBothStatesAndAloneClearsAFault :
    faulted.flt = true ∧ ∃ t, exec .sreset faulted = .next t ∧ t.flt = false := ⟨rfl, _, rfl, rfl⟩

theorem test_witness_DecodeOfEncodeIsTheCommand :
    (Instr.rd 6).wf = true ∧ (Instr.saltw 7 255).wf = true ∧ (Instr.arghi 0xFFFF).wf = true := by decide

theorem test_witness_ALegalWordIsTheOneWordOfItsCommand :
    decode 0x04000006 = .ok (.rd 6) ∧ decode 0x130007FF = .ok (.saltw 7 255) := by decide

theorem test_witness_DecodeFollowsTheMatchAndMaskColumns :
    (∃ i, decode 0x04000006 = .ok i ∧ i.op = .rd) ∧
    (0x04000006#32 &&& Op.rd.tableMask = Op.rd.tableMatch ∧ (Op.rd = .rd → (0x04000006#32).toNat % 256 ≤ 6)) ∧
    (0x04000007#32 &&& Op.rd.tableMask = Op.rd.tableMatch ∧ ¬ (0x04000007#32).toNat % 256 ≤ 6) := by
  exact ⟨⟨_, rfl, rfl⟩, by decide, by decide⟩

theorem test_witness_OperandsAreReadFromTheirFields :
    decode 0x0200FFFF = .ok (.arglo 0xFFFF) ∧ decode 0x05000080 = .ok (.zero 0x80) ∧
    decode 0x130007FF = .ok (.saltw 7 0xFF) ∧ decode 0x10000000 = .ok .setblen ∧ Op.setblen.format = .n := by decide

theorem test_witness_AStepExecutesTheDecodedWord :
    (let s := { fresh with prog := [0x0200FFFF] }; s.prog[s.k]? = some 0x0200FFFF#32) ∧
    decode 0x0200FFFF = .ok (.arglo 0xFFFF) ∧
    (let s := { fresh with prog := [0x07000000] }; s.prog[s.k]? = some 0x07000000#32 ∧ s.flt = false) ∧
    decode 0x07000000 = .error .unassignedOpcode ∧
    (let s := { faulted with prog := [0x07000000] }; s.prog[s.k]? = some 0x07000000#32 ∧ s.flt = true) ∧
    fresh.prog[fresh.k]? = none := by decide

theorem test_witness_CommandsNeitherReadNorWriteThePosition :
    (let s := { fresh with prog := [0x00000000] }; s.k < s.prog.length ∧ ∃ t, step s = .next t) ∧
    ∃ t, exec .hinit fresh = .next t := ⟨⟨by decide, _, rfl⟩, _, rfl⟩

/-- The four cases, the last at the count's wrap. -/
theorem test_witness_CidxCountsCompletedCommands :
    (decode 0x01000000 = .ok .sreset ∧ ∃ t, presentWord 0x01000000 faulted = .next t) ∧
    (decode 0x04000000 ≠ .ok .sreset ∧ faulted.flt = true ∧ ∃ t, presentWord 0x04000000 faulted = .next t) ∧
    (decode 0x50000000 ≠ .ok .sreset ∧ fresh.flt = false ∧
      ∃ t, presentWord 0x50000000 fresh = .next t ∧ t.flt = true) ∧
    (decode 0x00000000 ≠ .ok .sreset ∧ loaded.flt = false ∧ loaded.cidx = 0xFFFFFFFF ∧
      ∃ t, presentWord 0x00000000 loaded = .next t ∧ t.flt = false) :=
  ⟨⟨by decide, _, rfl⟩, ⟨by decide, rfl, _, rfl⟩, ⟨by decide, rfl, _, rfl, rfl⟩, ⟨by decide, rfl, rfl, _, rfl, rfl⟩⟩

/-- One word for each cause. -/
theorem test_witness_AFaultRecordsCauseAndWordAndNothingElse :
    fresh.flt = false ∧ loaded.flt = false ∧
    (∃ t, presentWord 0x07000000 fresh = .next t ∧ t.flt = true ∧ t.cause = 1) ∧
    (∃ t, presentWord 0x41000000 fresh = .next t ∧ t.flt = true ∧ t.cause = 2) ∧
    (∃ t, presentWord 0x12000000 loaded = .next t ∧ t.flt = true ∧ t.cause = 3) ∧
    (∃ t, presentWord 0x41000000 loaded = .next t ∧ t.flt = true ∧ t.cause = 4) :=
  ⟨rfl, rfl, ⟨_, rfl, rfl, rfl⟩, ⟨_, rfl, rfl, rfl⟩, ⟨_, rfl, rfl, rfl⟩, ⟨_, rfl, rfl, rfl⟩⟩

theorem test_witness_TheFaultedStateHearsOnlyResetAndRead :
    faulted.flt = true ∧ decode 0x01000000 = .ok .sreset ∧ decode 0x04000006 = .ok (.rd 6) ∧
    decode 0x04000007 = .error .rdSelector ∧ decode 0x21000061 = .ok (.hbyte 0x61) ∧
    ∃ t, presentWord 0x21000061 faulted = .next t :=
  ⟨rfl, by decide, by decide, by decide, by decide, _, rfl⟩

/-- Each condition at the edge of its range. -/
theorem test_witness_EachFaultConditionRaisesItsCause :
    fresh.flt = false ∧ decode 0xFFFFFFFF = .error .unassignedOpcode ∧
    fresh.mkv = false ∧ fresh.dkv = false ∧ fresh.sbv = false ∧
    (let s := { keyed with saltv := 0x7F }; s.flt = false ∧ s.mkv = true ∧ s.saltv ≠ 0x00 ∧ s.saltv ≠ 0xFF) ∧
    (let s := { fresh with arg := 65536 }; s.flt = false ∧ s.cfg.bufSize ≤ s.arg.toNat) ∧
    (let s := { fresh with arg := 65537 }; s.flt = false ∧ s.cfg.bufSize < s.arg.toNat) ∧
    (let s := { keyed with arg := 513 }; s.flt = false ∧ s.mkv = true ∧ (s.saltv = 0x00 ∨ s.saltv = 0xFF) ∧
      s.cfg.dkMax < s.arg.toNat) ∧
    (Instr.rd 6).wf = true ∧ Op.rd ∈ [Op.nop, .sreset, .arglo, .arghi, .rd] := by decide

theorem test_witness_OnlySresetClearsAFaultInAStep :
    let s := { faulted with prog := [0x21000061] }
    s.flt = true ∧ s.nextWord ≠ some 0x01000000#32 ∧ ∃ t, step s = .next t :=
  ⟨rfl, by decide, _, rfl⟩

/-- A state of the invariant with every key object valid, `BLEN` at `BUF_SIZE` and the last byte written. -/
theorem test_witness_invariant : loaded.Inv where
  blen_le := by decide
  dklen_le := by decide
  dklen_of_invalid := by decide
  dk_length := by decide
  sbox_permutation := fun _ => Table.identity_isPermutation
  mkey_of_invalid := by decide
  sbox_of_invalid := fun h => by cases h
  salt_of_invalid := by decide
  flt_iff := by decide
  ecmd_of_normal := by decide
  mkey_of_valid := fun _ => by decide +kernel
  cause_le := by decide
  buf_wf := by decide
  buf_below := by decide

/-- The invariant and a step: `test_witness_invariant` for the same fields, with a word to present. -/
theorem test_witness_EveryStepKeepsTheInvariant :
    let s := { loaded with prog := [0x05000000] }
    s.Inv ∧ ∃ t, step s = .next t :=
  ⟨⟨test_witness_invariant.1, test_witness_invariant.2, test_witness_invariant.3, test_witness_invariant.4,
    test_witness_invariant.5, test_witness_invariant.6, test_witness_invariant.7, test_witness_invariant.8,
    test_witness_invariant.9, test_witness_invariant.10, test_witness_invariant.11, test_witness_invariant.12,
    test_witness_invariant.13, test_witness_invariant.14⟩, _, rfl⟩

theorem test_witness_EveryReachableStateSatisfiesTheInvariant :
    ∃ t, step (State.resetWith (config tableA) [0x40000000] 0) = .next t ∧ Reachable t :=
  ⟨_, rfl, .step (.reset (config tableA) [0x40000000]) rfl⟩

/-- The invariant is met (`test_witness_invariant`); and the one stop is met outside it. -/
theorem test_witness_NoCommandStopsTheMachine :
    loaded.Inv ∧ exec .crypt { loaded with blen := 65537 } = .fault .bufAddressAbsent :=
  ⟨test_witness_invariant, rfl⟩

/-- NOP is in no list of writers; in a faulted and in a normal state; and a command that faults. -/
theorem test_witness_EachRegisterIsWrittenOnlyByItsWriters :
    (∃ t, exec .nop fresh = .next t ∧ t.flt = false) ∧ (∃ t, exec .nop faulted = .next t) ∧
    (∃ t, exec .sbinit fresh = .next t ∧ t.flt = true) ∧
    Op.nop ∉ [Op.arglo, .arghi, .bwr, .brd, .zero, .sreset, .rd, .hinit, .hbyte, .oracle, .mkrec, .saltw, .kdf,
      .sbinit, .setblen, .crypt] := ⟨⟨_, rfl, rfl⟩, ⟨_, rfl⟩, ⟨_, rfl, rfl⟩, by decide⟩

/-- Each clause: another command, BWR beside its byte, CRYPT at `BLEN`, ZERO without bit 6. -/
theorem test_witness_EachBufferByteIsWrittenOnlyByItsWriters :
    (∃ t, exec .brd { fresh with arg := 65535 } = .next t) ∧
    (∃ t, exec (.bwr 0xAB) { fresh with arg := 65535 } = .next t ∧ 65534 ≠ (65535#32).toNat) ∧
    (∃ t, exec .crypt { loaded with blen := 0 } = .next t ∧ (0#32).toNat ≤ 0) ∧
    (∃ t, exec (.zero 0xBF) loaded = .next t ∧ (0xBF#8).getLsbD 6 = false) :=
  ⟨⟨_, rfl⟩, ⟨_, rfl, by decide⟩, ⟨_, rfl, by decide⟩, ⟨_, rfl, by decide⟩⟩

/-- Two engines with other constants and other key stores. -/
theorem test_witness_KeyMaterialReachesOnlyDecAndTheCryptedBuffer :
    fresh.SameButSecrets { freshB with mkey := keyV15, dk := keyV17, salt := saltX, sbox0 := Table.identity } ∧
    fresh.cfg.secret ≠ freshB.cfg.secret ∧
    (∃ t, exec .nop fresh = .next t) ∧ (∃ t, exec .oracle fresh = .next t) ∧ ∃ t, exec .crypt fresh = .next t :=
  ⟨⟨rfl, rfl, rfl, rfl, rfl, rfl, rfl, rfl, rfl, rfl, rfl, rfl, rfl, rfl, rfl, rfl, rfl, rfl, rfl⟩, by decide,
    ⟨_, rfl⟩, ⟨_, rfl⟩, _, rfl⟩

/-- The hypothesis `s.flt = false` alone: NopOnlyCounts, ArgloLoadsTheLowHalfAndClearsTheHigh,
ArghiLoadsTheHighHalfAndKeepsTheLow, HinitStartsAHash, MkrecReconstructsTheMasterKey (its last clause:
`test_witness_EachRegisterIsWrittenOnlyByItsWriters`), StatusShowsTheFlagsInTheirBits (its last clause: `faulted`);
and with it `s.h = nlHash m` for HbyteFoldsOneByteIn. -/
theorem test_witness_normal_state : fresh.flt = false ∧ fresh.h = nlHash [] := by decide

/-- A normal state, a partial salt, and a command that makes a whole salt absent. -/
theorem test_witness_SaltwWritesOneSaltByteAndItsValidBit :
    fresh.flt = false ∧
    (let s := { fresh with saltv := 0x80 }; s.flt = false ∧ s.saltv ≠ 0x00 ∧ s.saltv ≠ 0xFF) ∧
    ∃ t, exec .sreset salted = .next t ∧ salted.saltv ≠ 0x00 ∧ t.saltv = 0x00 :=
  ⟨rfl, by decide, _, rfl, by decide, rfl⟩

theorem test_witness_ArgloThenArghiAssembleAnOperand :
    fresh.flt = false ∧
    (∃ t u, exec (.arglo 0xFFFF) fresh = .next t ∧ exec (.arghi 0xFFFF) t = .next u) ∧
    ∃ t u, exec (.arghi 0xFFFF) fresh = .next t ∧ exec (.arglo 0xFFFF) t = .next u :=
  ⟨rfl, ⟨_, _, rfl, rfl⟩, _, _, rfl, rfl⟩

theorem test_witness_RdLoadsTheSelectedRegister :
    fresh.flt = false ∧ faulted.flt = true ∧ 6 < (7#8).toNat := by decide

/-- A faulted state; the invariant, and a state whose `STATUS` is the rule's `0x0000000D`. -/
theorem test_witness_ZeroClearsExactlyWhatItsMaskSelects :
    faulted.flt = true ∧ loaded.flt = false ∧ loaded.Inv ∧
    { loaded with saltv := 0, dec := false }.status = 0x0000000D#32 ∧
    ∃ t, exec (.zero 0x05) { loaded with saltv := 0, dec := false } = .next t :=
  ⟨rfl, rfl, test_witness_invariant, by decide, _, rfl⟩

/-- `BUF_SIZE` itself, and one more. -/
theorem test_witness_SetblenTakesAnyLengthUpToTheBufferSize :
    loaded.flt = false ∧ loaded.arg.toNat ≤ loaded.cfg.bufSize ∧
    { loaded with arg := 65537 }.cfg.bufSize < { loaded with arg := 65537 }.arg.toNat := by decide

/-- BwrWritesOneByteAndMovesOn and BrdReadsOneByteAndMovesOn: a faulted state, the last address (written, and after a
reset not written) and the first that does not exist. -/
theorem test_witness_buffer_access :
    faulted.flt = true ∧ loaded.flt = false ∧ loaded.buf.wf ∧
    { loaded with arg := 65535 }.arg.toNat < { loaded with arg := 65535 }.cfg.bufSize ∧
    { loaded with arg := 65535 }.bufByte 65535 = 0x01 ∧
    (65535#32).toNat < fresh.cfg.bufSize ∧ fresh.bufByte 65535 = 0x00 ∧
    loaded.cfg.bufSize ≤ loaded.arg.toNat := by decide

theorem test_witness_OracleLatchesItsDecision :
    fresh.flt = false ∧ fresh.cfg.secret = [0x48, 0x6F, 0x6C, 0x79] ∧ fresh.arg = 0 := by decide

/-- TheOracleWordIsBigEndianAndCyclic and TheOracleAnswersASeedAndItsComplementAlike: the shortest table. -/
theorem test_witness_oracle_table : 1 ≤ ([0x48] : List Byte).length := by decide

/-- A salt of eight bytes, the first position, the last before the period repeats; and for
AShorterDerivedKeyIsAPrefixOfALonger a length and a longer one. -/
theorem test_witness_KdfOutputHashesEachPositionOnItsOwn :
    saltX.toList.length = 8 ∧ 0 < 1 ∧ 0 + 256 < 257 ∧ 32 ≤ 512 := by decide

/-- Each clause, the length at `DK_MAX` and one above. -/
theorem test_witness_KdfDerivesTheKeyOrFaultsInOrder :
    (let s := { salted with arg := 512 };
      s.flt = false ∧ s.mkv = true ∧ s.saltv = 0xFF ∧ s.arg.toNat ≤ s.cfg.dkMax) ∧
    (let s := { keyed with arg := 512 };
      s.flt = false ∧ s.mkv = true ∧ s.saltv = 0x00 ∧ s.arg.toNat ≤ s.cfg.dkMax) ∧
    (fresh.flt = false ∧ fresh.mkv = false) ∧
    (let s := { keyed with saltv := 0x01 };
      s.flt = false ∧ s.mkv = true ∧ s.saltv ≠ 0x00 ∧ s.saltv ≠ 0xFF) ∧
    (let s := { salted with arg := 513 };
      s.flt = false ∧ s.mkv = true ∧ (s.saltv = 0x00 ∨ s.saltv = 0xFF) ∧ s.cfg.dkMax < s.arg.toNat) := by decide

/-- Two keys that agree on 256 bytes and differ after them. -/
theorem test_witness_OnlyTheFirst256KeyBytesMatter :
    256 ≤ (List.replicate 256 (0 : Byte)).length ∧ 256 ≤ (List.replicate 256 (0 : Byte) ++ [1]).length ∧
    (List.replicate 256 (0 : Byte)).take 256 = (List.replicate 256 (0 : Byte) ++ [1]).take 256 :=
  ⟨Nat.le_of_eq List.length_replicate.symm, by rw [List.length_append, List.length_replicate]; decide,
    (List.take_append_of_le_length (Nat.le_of_eq List.length_replicate.symm)).symm⟩

/-- SbinitBuildsTheSboxFromTheKey: with a key and without. -/
theorem test_witness_SbinitBuildsTheSboxFromTheKey :
    loaded.flt = false ∧ loaded.dkv = true ∧ fresh.flt = false ∧ fresh.dkv = false := by decide

/-- With an S-box and `BLEN` at `BUF_SIZE`; with `BLEN = 0`; without an S-box; a table with the rule's entries. -/
theorem test_witness_CryptTransformsTheActiveBuffer :
    (loaded.flt = false ∧ loaded.buf.wf ∧ loaded.blen.toNat ≤ loaded.cfg.bufSize ∧ loaded.sbv = true) ∧
    (fresh.flt = false ∧ fresh.buf.wf ∧ fresh.blen.toNat ≤ fresh.cfg.bufSize ∧ fresh.sbv = false) ∧ fresh.blen = 0 ∧
    (let t : Table := ((fresh.sbox0.set 0x01 0x08).set 0x08 0x45).set 0x4D 0x80;
      t.get 0x01 = 0x08 ∧ t.get 0x08 = 0x45 ∧ t.get 0x4D = 0x80) := by decide +kernel

theorem test_witness_CryptBufferIsXorWithAKeystream : 8 ≤ 16 := by decide

/-- TheWorkingTableStaysAPermutation: the identity table, and a CRYPT that answers. -/
theorem test_witness_TheWorkingTableStaysAPermutation :
    loaded.sbox0.IsPermutation ∧ ∃ t, exec .crypt { loaded with blen := 2 } = .next t :=
  ⟨test_witness_invariant.sbox_permutation rfl, _, rfl⟩

theorem test_witness_ASecondCryptRestoresTheBuffer :
    let s := { loaded with blen := 2 }
    s.flt = false ∧ s.sbv = true ∧ s.buf.wf ∧ ∃ t u, exec .crypt s = .next t ∧ exec .crypt t = .next u :=
  ⟨rfl, rfl, by decide, _, _, rfl, rfl⟩

/-- Each clause: a field list, and a list for each of the three errors. -/
theorem test_witness_ParseAcceptsTheLayoutAndRejectsTheThreeErrors :
    ({ version := 0x01, reserved := #v[0xAA, 0xBB, 0xCC], salt := saltX, payload := [0x08] } :
      Container).payload.length < 2 ^ 32 ∧
    (container.take 19).length < 20 ∧ (container.set 0 0x63).take 4 ≠ [0x43, 0x52, 0x34, 0x46] ∧
    (container.set 16 3).length - 20 < payloadLength (container.set 16 3) ∧
    parse (container.set 16 3) = .error .formatError := by decide

/-- Each clause: a payload that fits, one that does not, a malformed container. -/
theorem test_witness_TheHostProcedureComputesDecrypt :
    (∃ c, parse container = .ok c ∧ c.payload.length ≤ fresh.cfg.bufSize) ∧
    (∃ c, parse (container.set 16 2) = .ok c ∧ (State.resetWith smallest [] 0).cfg.bufSize < c.payload.length) ∧
    parse [] = .error .formatError :=
  ⟨⟨{ version := 0x01, reserved := #v[0xAA, 0xBB, 0xCC], salt := saltX, payload := [0x08] }, by decide, by decide⟩,
   ⟨{ version := 0x01, reserved := #v[0xAA, 0xBB, 0xCC], salt := saltX, payload := [0x08, 0xEE] }, by decide,
    by decide⟩, by decide⟩

theorem test_witness_EnginesAreIndependent :
    [fresh, faulted][1]? = some faulted ∧ ∃ after, stepEngine 1 [fresh, faulted] = .next after := ⟨rfl, _, rfl⟩

end Sys2Proof.Tests
end

section
/-! PROOFS. The family of spec/10_state.md: what any command can answer, and from it the count `CIDX` (R23);
the reset values (R44); the bits of `STATUS` (R29). -/

namespace Sys2Proof.Machine

variable {s t : State} {w : Word} {i : Instr}

/-! ### What any command can answer (40_control_and_data.md R106) -/

/-- The state that no command's own effect writes: the configuration, the host's list and position, the count,
and the record of a fault. Only the envelope of R106 writes `CIDX`, `FLT`, `CAUSE` and `ECMD`. -/
structure State.SameEnvelope (s u : State) : Prop where
  cfg : u.cfg = s.cfg := by simp
  prog : u.prog = s.prog := by simp
  k : u.k = s.k := by simp
  cidx : u.cidx = s.cidx := by simp
  flt : u.flt = s.flt := by simp
  cause : u.cause = s.cause := by simp
  ecmd : u.ecmd = s.ecmd := by simp

/-- The four ways a command other than SRESET can answer, `w` being the word a fault records (R106). -/
inductive CommandOutcome (w : Word) (s : State) : State → Prop where
  /-- The faulted engine ignores it (R206). -/
  | ignored (hf : s.flt = true) : CommandOutcome w s s
  /-- The faulted engine still reads a register out (R104). -/
  | read (hf : s.flt = true) {sel8 : Byte} {v : Word} (hw : w = encode (.rd sel8))
      (hv : s.selected sel8 = some v) : CommandOutcome w s (s.setDout v)
  /-- The normal engine takes a fault (R204). -/
  | faulted (hf : s.flt = false) (c : Cause) : CommandOutcome w s (s.recordFault c w)
  /-- The normal engine has the command's effect and counts it (R23). -/
  | completed (hf : s.flt = false) {u : State} (hu : s.SameEnvelope u) : CommandOutcome w s u.countCommand

/-- A command that cannot fault is ignored or completes. -/
theorem CommandOutcome.of_neverFaults {u : State} (hu : s.SameEnvelope u)
    (h : (s.flt = true ∧ t = s) ∨ (s.flt = false ∧ t = u.countCommand)) : CommandOutcome w s t := by
  obtain ⟨hf, rfl⟩ | ⟨hf, rfl⟩ := h
  · exact .ignored hf
  · exact .completed hf hu

/-- A command with one fault condition is ignored, takes that fault, or completes. -/
theorem CommandOutcome.of_oneFault {u : State} {c : Cause} {p q : Prop} (hu : s.SameEnvelope u)
    (h : (s.flt = true ∧ t = s) ∨ (s.flt = false ∧ p ∧ t = s.recordFault c w) ∨
      (s.flt = false ∧ q ∧ t = u.countCommand)) : CommandOutcome w s t := by
  obtain ⟨hf, rfl⟩ | ⟨hf, -, rfl⟩ | ⟨hf, -, rfl⟩ := h
  · exact .ignored hf
  · exact .faulted hf c
  · exact .completed hf hu

theorem execRd_outcome {sel8 : Byte} (h : execRd sel8 s = .next t) :
    CommandOutcome (encode (.rd sel8)) s t := by
  obtain ⟨-, hf, rfl⟩ | ⟨-, hf, rfl⟩ | ⟨v, hv, hf, rfl⟩ | ⟨v, -, hf, rfl⟩ := execRd_next.mp h
  · exact .ignored hf
  · exact .faulted hf _
  · exact .read hf rfl hv
  · exact .completed hf {}

theorem execKdf_outcome (h : execKdf s = .next t) : CommandOutcome (encode .kdf) s t := by
  obtain ⟨hf, rfl⟩ | ⟨hf, -, rfl⟩ | ⟨hf, -, -, -, rfl⟩ | ⟨hf, -, -, -, rfl⟩ := execKdf_next.mp h
  · exact .ignored hf
  · exact .faulted hf _
  · exact .faulted hf _
  · exact .completed hf {}

theorem execCrypt_outcome (h : execCrypt s = .next t) : CommandOutcome (encode .crypt) s t := by
  obtain ⟨hf, rfl⟩ | ⟨hf, -, rfl⟩ | ⟨hf, -, -, rfl⟩ := execCrypt_next.mp h
  · exact .ignored hf
  · exact .faulted hf _
  · exact .completed hf {}

/-- Every command but SRESET answers in one of the four ways. -/
theorem exec_outcome (hi : i ≠ .sreset) (h : exec i s = .next t) : CommandOutcome (encode i) s t := by
  cases i with
  | nop => exact .of_neverFaults {} (execNop_next.mp h)
  | sreset => exact absurd rfl hi
  | arglo v => exact .of_neverFaults {} (execArglo_next.mp h)
  | arghi v => exact .of_neverFaults {} (execArghi_next.mp h)
  | rd sel8 => exact execRd_outcome h
  | zero m => exact .of_neverFaults {} (execZero_next.mp h)
  | setblen => exact .of_oneFault {} (execSetblen_next.mp h)
  | bwr v => exact .of_oneFault {} (execBwr_next.mp h)
  | brd => exact .of_oneFault {} (execBrd_next.mp h)
  | saltw n v => exact .of_neverFaults {} (execSaltw_next.mp h)
  | hinit => exact .of_neverFaults {} (execHinit_next.mp h)
  | hbyte v => exact .of_neverFaults {} (execHbyte_next.mp h)
  | oracle => exact .of_neverFaults {} (execOracle_next.mp h)
  | mkrec => exact .of_neverFaults {} (execMkrec_next.mp h)
  | kdf => exact execKdf_outcome h
  | sbinit => exact .of_oneFault {} (execSbinit_next.mp h)
  | crypt => exact execCrypt_outcome h

theorem presentIllegal_outcome (h : presentIllegal w s = .next t) : CommandOutcome w s t := by
  obtain ⟨hf, rfl⟩ | ⟨hf, rfl⟩ := presentIllegal_next.mp h
  · exact .ignored hf
  · exact .faulted hf _

theorem presentWord_of_ok (h : decode w = .ok i) (s : State) : presentWord w s = exec i s := by
  simp [presentWord, h]

theorem presentWord_of_error {e : Illegal} (h : decode w = .error e) (s : State) :
    presentWord w s = presentIllegal w s := by
  simp [presentWord, h]

/-- Every word but SRESET's answers in one of the four ways, legal or not. -/
theorem presentWord_outcome (hw : decode w ≠ .ok .sreset) (h : presentWord w s = .next t) :
    ∃ w', CommandOutcome w' s t := by
  cases hd : decode w with
  | ok i =>
    rw [presentWord_of_ok hd] at h
    exact ⟨_, exec_outcome (fun hi => hw (hi ▸ hd)) h⟩
  | error e =>
    rw [presentWord_of_error hd] at h
    exact ⟨_, presentIllegal_outcome h⟩

/-! ### CIDX (10_state.md R23) -/

/-- The faulted engine stays faulted and leaves the count. -/
theorem CommandOutcome.cidx_of_faulted (ho : CommandOutcome w s t) (hf : s.flt = true) : t.cidx = s.cidx := by
  cases ho with
  | ignored => rfl
  | read => rfl
  | faulted hn => simp [hf] at hn
  | completed hn => simp [hf] at hn

/-- The normal engine counts the command exactly when it takes no fault. -/
theorem CommandOutcome.cidx_of_normal (ho : CommandOutcome w s t) (hf : s.flt = false) :
    t.cidx = if t.flt then s.cidx else s.cidx + 1 := by
  cases ho with
  | ignored hn => simp [hf] at hn
  | read hn => simp [hf] at hn
  | faulted => simp
  | completed _ hu => simp [hu.flt, hu.cidx, hf]

theorem presentWord_sreset (h : decode w = .ok .sreset) (s : State) :
    presentWord w s = .next s.hardwareReset :=
  presentWord_of_ok h s

/-- Settles O13, by the outcomes of a presented word. -/
theorem cidxCountsCompletedCommands : Obligations.CidxCountsCompletedCommands := by
  unfold Obligations.CidxCountsCompletedCommands
  refine ⟨rfl, fun w s t h => ⟨fun hw => ?_, fun hw hf => ?_, fun hw hf ht => ?_, fun hw hf ht => ?_⟩⟩
  · rw [presentWord_sreset hw, next_eq_next] at h
    rw [h, State.hardwareReset_cidx]
  · obtain ⟨_, ho⟩ := presentWord_outcome hw h
    exact ho.cidx_of_faulted hf
  · obtain ⟨_, ho⟩ := presentWord_outcome hw h
    simpa [ht] using ho.cidx_of_normal hf
  · obtain ⟨_, ho⟩ := presentWord_outcome hw h
    have hc : t.cidx = s.cidx + 1 := by simpa [ht] using ho.cidx_of_normal hf
    rw [hc, BitVec.toNat_add]
    rfl

/-! ### The reset values (10_state.md R44, 70_reset_and_hazards.md R230) -/

/-- Reset gives every piece the value of R44's table, under every configuration and beside every list. -/
theorem resetWith_atReset (cfg : Config) (prog : List Word) (k : Nat) :
    (State.resetWith cfg prog k).AtReset where
  arg := rfl
  dout := rfl
  cidx := rfl
  h := rfl
  dec := rfl
  mkv := rfl
  dkv := rfl
  sbv := rfl
  saltv := rfl
  flt := rfl
  cause := rfl
  ecmd := rfl
  blen := rfl
  dklen := rfl
  mkey t := by simp
  salt t := by simp
  dk := rfl
  sbox0 x := by simp
  buf _ := rfl

theorem hardwareReset_atReset (s : State) : s.hardwareReset.AtReset :=
  resetWith_atReset s.cfg s.prog s.k

/-- Settles O1: the three resets are one `resetWith`. -/
theorem resetLeavesEveryPieceAtItsValue : Obligations.ResetLeavesEveryPieceAtItsValue := by
  unfold Obligations.ResetLeavesEveryPieceAtItsValue
  refine ⟨resetWith_atReset _ _ _, fun s => ⟨hardwareReset_atReset s, s.hardwareReset_cfg⟩, fun s => ?_⟩
  exact ⟨_, execSreset_next.mpr rfl, hardwareReset_atReset s, s.hardwareReset_cfg⟩

/-! ### STATUS (10_state.md R29) -/

theorem saltPresent_eq_decide (s : State) : s.saltPresent = decide (s.saltv = 0xFF) :=
  Bool.beq_eq_decide_eq _ _

/-- Bit `n` of `STATUS`, term by term of R29. -/
theorem status_getLsbD (s : State) {n : Nat} (hn : n < 32) :
    s.status.getLsbD n =
      (decide (n = 0) && s.mkv || decide (n = 1) && s.saltPresent || decide (n = 2) && s.dkv ||
        decide (n = 3) && s.sbv || decide (n = 4) && s.dec || decide (n = 7) && s.flt ||
        decide (8 ≤ n) && s.cause.getLsbD (n - 8) || decide (16 ≤ n) && s.saltv.getLsbD (n - 16)) := by
  have hbit (b : Bool) (k : Nat) : (bitWord b <<< k).getLsbD n = (decide (n = k) && b) := by
    rw [BitVec.getLsbD_shiftLeft, bitWord_getLsbD]
    rcases Nat.lt_trichotomy n k with h | rfl | h
    · simp [h, h.ne]
    · simp [hn]
    · simp [h.ne', Nat.sub_ne_zero_of_lt h]
  have hbyte (v : BitVec 8) (k : Nat) :
      (v.setWidth 32 <<< k).getLsbD n = (decide (k ≤ n) && v.getLsbD (n - k)) := by
    rcases Nat.lt_or_ge n k with h | h
    · simp [h, Nat.not_le.mpr h]
    · simp [hn, h, Nat.not_lt.mpr h]
  simp only [State.status, BitVec.getLsbD_or, hbit, hbyte, bitWord_getLsbD]

/-- Above its low byte, `STATUS` is `CAUSE` and then `SALTV`. -/
theorem status_getLsbD_above_flags (s : State) {n : Nat} (hn : n < 24) :
    s.status.getLsbD (8 + n) = (s.cause.getLsbD n || decide (8 ≤ n) && s.saltv.getLsbD (n - 8)) := by
  have hflag : ∀ k < 8, decide (8 + n = k) = false := fun k hk => decide_eq_false (by omega)
  rw [status_getLsbD s (by omega)]
  simp [hflag, show 16 ≤ 8 + n ↔ 8 ≤ n by omega, show 8 + n - 16 = n - 8 by omega]

/-- A field of `STATUS` is `v` when each of its bits is. -/
theorem status_field {s : State} {lo len : Nat} {v : BitVec len}
    (h : ∀ n < len, s.status.getLsbD (lo + n) = v.getLsbD n) : s.status.extractLsb' lo len = v := by
  ext n hn
  rw [BitVec.getElem_extractLsb', h n hn, BitVec.getLsbD_eq_getElem]

theorem status_bits_6_5 (s : State) : s.status.extractLsb' 5 2 = 0 := by
  refine status_field fun n hn => ?_
  rw [status_getLsbD s (by omega)]
  obtain rfl | rfl : n = 0 ∨ n = 1 := by omega
  · rfl
  · rfl

theorem status_cause (s : State) : s.status.extractLsb' 8 8 = s.cause := by
  refine status_field fun n hn => ?_
  rw [status_getLsbD_above_flags s (by omega)]
  simp [Nat.not_le.mpr hn]

theorem status_saltv (s : State) : s.status.extractLsb' 16 8 = s.saltv := by
  refine status_field fun n hn => ?_
  rw [show 16 + n = 8 + (8 + n) by omega, status_getLsbD_above_flags s (by omega)]
  simp

theorem status_bits_31_24 (s : State) : s.status.extractLsb' 24 8 = 0 := by
  refine status_field fun n hn => ?_
  rw [show 24 + n = 8 + (16 + n) by omega, status_getLsbD_above_flags s (by omega)]
  simp [show 8 ≤ 16 + n by omega, show 8 ≤ 16 + n - 8 by omega]

/-- RD of a register loads it in both states and counts in the normal one (40_control_and_data.md R104). -/
theorem exec_rd_of_selected {sel8 : Byte} {v : Word} (h : s.selected sel8 = some v) :
    exec (.rd sel8) s = if s.flt then .next (s.setDout v) else complete (s.setDout v) := by
  simp [exec, execRd, h]

/-- Settles O30, from R29's terms bit by bit and RD's rule. -/
theorem statusShowsTheFlagsInTheirBits : Obligations.StatusShowsTheFlagsInTheirBits := by
  unfold Obligations.StatusShowsTheFlagsInTheirBits
  intro s
  have hrd := exec_rd_of_selected (s := s) (sel8 := 0) rfl
  refine ⟨?_, ?_, ?_, ?_, ?_, status_bits_6_5 s, status_flt s, status_cause s, status_saltv s,
    status_bits_31_24 s, fun hf => ?_, fun hf => ?_⟩
  · rw [status_getLsbD s (by omega)]
    simp
  · rw [status_getLsbD s (by omega)]
    simp [saltPresent_eq_decide]
  · rw [status_getLsbD s (by omega)]
    simp
  · rw [status_getLsbD s (by omega)]
    simp
  · rw [status_getLsbD s (by omega)]
    simp
  · rw [hrd, if_neg (by simp [hf])]
    rfl
  · rw [hrd, if_pos hf]
    rfl

end Sys2Proof.Machine
end

section
/-! PROOFS. The family of spec/30_encoding.md: the table's columns decide what a word decodes to (R87), and the
opcode, operand and reserved fields stand where the formats put them (R81). -/

namespace Sys2Proof

variable {w : Word} {i : Instr}

/-! ### A word that decodes (30_encoding.md R86) -/

theorem Op.instr_op (o : Op) (w : Word) : (o.instr w).op = o := by cases o <;> rfl

theorem ofCode_eq_some_iff {b : Byte} {o : Op} : Op.ofCode b = some o ↔ o.code = b := by
  refine ⟨Op.code_of_ofCode, ?_⟩
  rintro rfl
  exact o.ofCode_code

/-- A word decodes to `i` exactly when each of its fields is that of `i`. -/
theorem decode_ok_iff_fields :
    decode w = .ok i ↔
      i.op.code = opField w ∧ reservedZero i.op.format w = true ∧ i.op.instr w = i ∧ i.wf = true := by
  rw [decode_ok_iff]
  constructor
  · rintro ⟨o, hc, hr, rfl, hwf⟩
    rw [o.instr_op w]
    exact ⟨ofCode_eq_some_iff.mp hc, hr, rfl, hwf⟩
  · rintro ⟨hc, hr, hi, hwf⟩
    exact ⟨i.op, ofCode_eq_some_iff.mpr hc, hr, hi, hwf⟩

/-- A word decodes to some command of row `o` exactly when its fields fit the row. -/
theorem decodesTo_op_iff {o : Op} :
    (∃ i, decode w = .ok i ∧ i.op = o) ↔
      (o.code = opField w ∧ reservedZero o.format w = true) ∧ (o.instr w).wf = true := by
  constructor
  · rintro ⟨i, hi, rfl⟩
    obtain ⟨hc, hr, hfields, hwf⟩ := decode_ok_iff_fields.mp hi
    rw [hfields]
    exact ⟨⟨hc, hr⟩, hwf⟩
  · rintro ⟨⟨hc, hr⟩, hwf⟩
    exact ⟨o.instr w, decode_ok_iff.mpr ⟨o, ofCode_eq_some_iff.mpr hc, hr, rfl, hwf⟩, o.instr_op w⟩

/-! ### The fields as numbers (30_encoding.md R81) -/

/-- How many low bits of a word a format leaves to its operands; the reserved field fills the bits up to 23. -/
def Format.operandBits : Format → Nat
  | .n => 0
  | .b => 8
  | .h => 16
  | .s => 11

theorem byteField_toNat (w : Word) : (byteField w).toNat = w.toNat % 2 ^ 8 := by
  rw [byteField, toNat_field, Nat.pow_zero, Nat.div_one]

theorem halfField_toNat (w : Word) : (halfField w).toNat = w.toNat % 2 ^ 16 := by
  rw [halfField, toNat_field, Nat.pow_zero, Nat.div_one]

theorem idxField_toNat (w : Word) : (idxField w).toNat = w.toNat / 2 ^ 8 % 2 ^ 3 :=
  toNat_field w 8 3

theorem field_beq_zero_iff (w : Word) (lo len : Nat) :
    (w.extractLsb' lo len == 0) = true ↔ w.toNat / 2 ^ lo % 2 ^ len = 0 := by
  rw [beq_iff_eq, ← BitVec.toNat_inj, toNat_field]
  rfl

theorem reservedZero_iff (f : Format) (w : Word) :
    reservedZero f w = true ↔ w.toNat / 2 ^ f.operandBits % 2 ^ (24 - f.operandBits) = 0 :=
  match f with
  | .n => field_beq_zero_iff w 0 24
  | .b => field_beq_zero_iff w 8 16
  | .h => field_beq_zero_iff w 16 8
  | .s => field_beq_zero_iff w 11 13

/-! ### The columns match and mask (30_encoding.md R87) -/

/-- A row's mask is every bit above its format's operands. -/
theorem Op.tableMask_eq (o : Op) : o.tableMask = BitVec.allOnes 32 <<< o.format.operandBits := by
  cases o <;> rfl

/-- A row's match is its opcode in bits 31:24. -/
theorem Op.tableMatch_toNat (o : Op) : o.tableMatch.toNat = o.code.toNat * 2 ^ 24 := by
  cases o <;> rfl

/-- Masking off the low `n` bits, as a number. -/
theorem toNat_and_highOnes (w : Word) (n : Nat) :
    (w &&& BitVec.allOnes 32 <<< n).toNat = w.toNat / 2 ^ n * 2 ^ n := by
  have hlt : w.toNat / 2 ^ n * 2 ^ n < 2 ^ 32 := Nat.lt_of_le_of_lt (Nat.div_mul_le_self _ _) w.isLt
  rw [← BitVec.shiftLeft_ushiftRight, BitVec.toNat_shiftLeft, BitVec.toNat_ushiftRight,
    Nat.shiftRight_eq_div_pow, Nat.shiftLeft_eq, Nat.mod_eq_of_lt hlt]

/-- The bits above the operands are an opcode and zeros exactly when bits 31:24 are the opcode and the reserved
field is zero. -/
theorem highBits_eq_iff (f : Format) (x c : Nat) :
    x / 2 ^ f.operandBits * 2 ^ f.operandBits = c * 2 ^ 24 ↔
      c = x / 2 ^ 24 ∧ x / 2 ^ f.operandBits % 2 ^ (24 - f.operandBits) = 0 := by
  cases f <;> simp only [Format.operandBits] <;> omega

theorem and_tableMask_eq_iff (o : Op) (w : Word) :
    w &&& o.tableMask = o.tableMatch ↔ o.code = opField w ∧ reservedZero o.format w = true := by
  rw [← BitVec.toNat_inj, o.tableMask_eq, toNat_and_highOnes, o.tableMatch_toNat, highBits_eq_iff,
    reservedZero_iff, ← opField_toNat, BitVec.toNat_inj]

/-- The one ill-formed command a word's fields can make is RD with a selector above 6 (R86, R89). -/
theorem instr_wf_iff (o : Op) (w : Word) : (o.instr w).wf = true ↔ (o = .rd → w.toNat % 256 ≤ 6) := by
  cases o with
  | rd =>
    have hwf : (Op.rd.instr w).wf = decide ((byteField w).toNat ≤ 6) := rfl
    rw [hwf, decide_eq_true_iff, byteField_toNat]
    simp
  | _ => exact iff_of_true rfl nofun

/-- Settles O5: the columns by evaluation, then mask and match as the fields' numbers. -/
theorem decodeFollowsTheMatchAndMaskColumns : Obligations.DecodeFollowsTheMatchAndMaskColumns := by
  unfold Obligations.DecodeFollowsTheMatchAndMaskColumns
  refine ⟨rfl, fun o w => ?_⟩
  rw [decodesTo_op_iff, and_tableMask_eq_iff, instr_wf_iff]

/-- Settles O6: each field of a word that decodes is that of its command, and each field is a number. -/
theorem operandsAreReadFromTheirFields : Obligations.OperandsAreReadFromTheirFields := by
  unfold Obligations.OperandsAreReadFromTheirFields
  intro w i h
  obtain ⟨hc, hr, hi, -⟩ := decode_ok_iff_fields.mp h
  have reserved {f : Format} (hf : i.op.format = f) :
      w.toNat / 2 ^ f.operandBits % 2 ^ (24 - f.operandBits) = 0 :=
    (reservedZero_iff f w).mp (hf ▸ hr)
  refine ⟨?_, ?_, ?_, ?_, fun hf => ?_, reserved, reserved, reserved⟩
  · rw [hc, opField_toNat]
  · rintro v (rfl | rfl)
    · exact Instr.arglo.inj hi ▸ halfField_toNat w
    · exact Instr.arghi.inj hi ▸ halfField_toNat w
  · rintro v (rfl | rfl | rfl | rfl)
    · exact Instr.rd.inj hi ▸ byteField_toNat w
    · exact Instr.zero.inj hi ▸ byteField_toNat w
    · exact Instr.bwr.inj hi ▸ byteField_toNat w
    · exact Instr.hbyte.inj hi ▸ byteField_toNat w
  · rintro n v rfl
    obtain ⟨rfl, rfl⟩ := Instr.saltw.inj hi
    exact ⟨idxField_toNat w, byteField_toNat w⟩
  · simpa [Format.operandBits] using reserved hf

end Sys2Proof
end

section
/-! PROOFS. The family of spec/40_control_and_data.md: the words of its commands (R81), what each command answers in
the normal state, and the frames of SRESET, RD, ZERO, BWR, BRD and SALTW (R100 to R110). -/

namespace Sys2Proof.Machine

variable {s t : State} {i : Instr}

/-! ### The word of a command as its row's match with the operands (30_encoding.md R81, R87) -/

/-- The word of a well-formed command decodes to it (R86). -/
theorem decode_encode (h : i.wf = true) : decode (encode i) = .ok i :=
  decode_ok_iff_fields.mpr ⟨(opField_encode i).symm, reservedZero_encode i, instr_encode i, h⟩

theorem append_eq_shiftLeft_or {m n : Nat} (a : BitVec m) (b : BitVec n) :
    a ++ b = a.setWidth (m + n) <<< n ||| b.setWidth (m + n) := by
  rw [← BitVec.setWidth_append_eq_shiftLeft_setWidth_or, BitVec.setWidth_eq]

theorem encodeB_eq (o : Op) (v : Byte) : encodeB o v = o.tableMatch ||| v.setWidth 32 := by
  rw [encodeB, append_eq_shiftLeft_or]
  cases o <;> rfl

theorem encodeH_eq (o : Op) (v : Half) : encodeH o v = o.tableMatch ||| v.setWidth 32 := by
  rw [encodeH, append_eq_shiftLeft_or]
  cases o <;> rfl

theorem encodeS_eq (o : Op) (n : BitVec 3) (v : Byte) :
    encodeS o n v = o.tableMatch ||| n.setWidth 32 <<< 8 ||| v.setWidth 32 := by
  have h : encodeS o n v =
      ((o.code ++ 0#13).setWidth 32 <<< 3 ||| n.setWidth 32) <<< 8 ||| v.setWidth 32 := by
    rw [← BitVec.setWidth_append_eq_shiftLeft_setWidth_or, ← BitVec.setWidth_append_eq_shiftLeft_setWidth_or,
      BitVec.setWidth_eq]
    rfl
  rw [h, BitVec.shiftLeft_or_distrib]
  cases o <;> rfl

/-! ### NOP, ARGLO, ARGHI, SETBLEN (R100, R102, R103, R107) -/

/-- Settles O25: the normal engine completes NOP with no effect. -/
theorem nopOnlyCounts : Obligations.NopOnlyCounts := by
  unfold Obligations.NopOnlyCounts
  exact ⟨rfl, decode_encode (i := .nop) rfl, fun s hf => execNop_next.mpr (.inr ⟨hf, rfl⟩)⟩

theorem lowOperand_toNat (v : Half) : (lowOperand v).toNat = v.toNat :=
  BitVec.toNat_setWidth_of_le (by omega)

/-- ARGHI's operand is the immediate appended to the low half it keeps. -/
theorem highOperand_eq_append (v : Half) (arg : Word) : highOperand v arg = v ++ arg.extractLsb' 0 16 :=
  (append_eq_shiftLeft_or v (arg.extractLsb' 0 16)).symm

theorem highOperand_toNat (v : Half) (arg : Word) :
    (highOperand v arg).toNat = v.toNat * 2 ^ 16 + arg.toNat % 2 ^ 16 := by
  rw [highOperand_eq_append, toNat_cat, toNat_field, Nat.pow_zero, Nat.div_one]

/-- Settles O26, from the word of format H and the low operand as a number. -/
theorem argloLoadsTheLowHalfAndClearsTheHigh : Obligations.ArgloLoadsTheLowHalfAndClearsTheHigh := by
  unfold Obligations.ArgloLoadsTheLowHalfAndClearsTheHigh
  intro v
  have hw : encode (.arglo v) = 0x02000000 ||| v.setWidth 32 := encodeH_eq .arglo v
  refine ⟨hw, hw ▸ decode_encode rfl, fun s hf => ?_⟩
  exact ⟨lowOperand v, lowOperand_toNat v, execArglo_next.mpr (.inr ⟨hf, rfl⟩)⟩

/-- Settles O27, from the word of format H and the high operand as a number. -/
theorem arghiLoadsTheHighHalfAndKeepsTheLow : Obligations.ArghiLoadsTheHighHalfAndKeepsTheLow := by
  unfold Obligations.ArghiLoadsTheHighHalfAndKeepsTheLow
  intro v
  have hw : encode (.arghi v) = 0x03000000 ||| v.setWidth 32 := encodeH_eq .arghi v
  refine ⟨hw, hw ▸ decode_encode rfl, fun s hf => ?_⟩
  exact ⟨highOperand v s.arg, highOperand_toNat v s.arg, execArghi_next.mpr (.inr ⟨hf, rfl⟩)⟩

/-- Settles O32: the two arms of SETBLEN's rule. -/
theorem setblenTakesAnyLengthUpToTheBufferSize : Obligations.SetblenTakesAnyLengthUpToTheBufferSize := by
  unfold Obligations.SetblenTakesAnyLengthUpToTheBufferSize
  refine ⟨rfl, fun s hf => ⟨fun hle => ?_, fun hlt => ?_⟩⟩
  · exact execSetblen_next.mpr (.inr (.inr ⟨hf, hle, rfl⟩))
  · exact execSetblen_next.mpr (.inr (.inl ⟨hf, hlt, rfl⟩))

/-! ### SRESET (R101) -/

/-- No command but SRESET takes the faulted engine out of its faulted state (60_exceptions.md R209). -/
theorem CommandOutcome.flt_of_faulted {w : Word} (ho : CommandOutcome w s t) (hf : s.flt = true) :
    t.flt = true := by
  cases ho with
  | ignored => exact hf
  | read => exact hf
  | faulted => rfl
  | completed hn => simp [hf] at hn

theorem hardwareReset_status (s : State) : s.hardwareReset.status = 0 := by
  simp [State.status, State.saltPresent, bitWord]

/-- Settles O2, from what any other command can answer in the faulted state. -/
theorem sresetResetsInBothStatesAndAloneClearsAFault :
    Obligations.SresetResetsInBothStatesAndAloneClearsAFault := by
  unfold Obligations.SresetResetsInBothStatesAndAloneClearsAFault
  refine ⟨rfl, fun s => ⟨execSreset_next.mpr rfl, hardwareReset_atReset s, rfl, fun i t hf h ht => ?_, ?_⟩⟩
  · by_contra hi
    have hstays : t.flt = true := (exec_outcome hi h).flt_of_faulted hf
    simp [ht] at hstays
  · exact exec_rd_of_selected (congrArg some (hardwareReset_status s))

/-! ### RD (R104) -/

theorem exec_rd_of_illegal {sel8 : Byte} (h : 6 < sel8.toNat) (hf : s.flt = false) :
    exec (.rd sel8) s = .next (s.recordFault .illegalCommand (encode (.rd sel8))) := by
  have hnone : s.selected sel8 = none := (selected_none_iff s sel8).mpr (decide_eq_false (by omega))
  exact execRd_next.mpr (.inr (.inl ⟨hnone, hf, rfl⟩))

/-- Settles O29: each selector's register by evaluation, then RD's rule in either state. -/
theorem rdLoadsTheSelectedRegister : Obligations.RdLoadsTheSelectedRegister := by
  unfold Obligations.RdLoadsTheSelectedRegister
  have hw (sel8 : Byte) : encode (.rd sel8) = 0x04000000 ||| sel8.setWidth 32 := encodeB_eq .rd sel8
  refine ⟨hw, fun s => ⟨fun p hp => ?_, fun sel8 h hf => ?_, ?_⟩⟩
  · have hsel : s.selected p.1 = some p.2 := by
      simp only [List.mem_cons, List.not_mem_nil, or_false] at hp
      rcases hp with rfl | rfl | rfl | rfl | rfl | rfl | rfl <;> rfl
    refine ⟨fun hf => ?_, fun hf => ?_⟩
    · exact execRd_next.mpr (.inr (.inr (.inr ⟨p.2, hsel, hf, rfl⟩)))
    · exact execRd_next.mpr (.inr (.inr (.inl ⟨p.2, hsel, hf, rfl⟩)))
  · rw [exec_rd_of_illegal h hf, hw]
    rfl
  · exact exec_rd_of_selected (s := s.hardwareReset) (sel8 := 1) rfl

/-! ### ZERO (R105) -/

/-- ZERO never faults. -/
theorem exec_zero_normal (hf : s.flt = false) (mask8 : Byte) :
    exec (.zero mask8) s = .next (s.zeroed mask8).countCommand :=
  execZero_next.mpr (.inr ⟨hf, rfl⟩)

theorem getElem_ite_replicate_zero {n : Nat} (b : Bool) (v : Vector Byte n) (x : Fin n) :
    (if b then Vector.replicate n 0 else v)[x] = if b then 0 else v[x] := by
  cases b <;> simp

section zeroed

variable (s : State) (m : Byte)

theorem zeroed_mkey_getElem (n : Fin 16) : (s.zeroed m).mkey[n] = if m.getLsbD 0 then 0 else s.mkey[n] := by
  rw [State.zeroed_mkey]
  exact getElem_ite_replicate_zero _ s.mkey n

theorem zeroed_salt_getElem (n : Fin 8) : (s.zeroed m).salt[n] = if m.getLsbD 1 then 0 else s.salt[n] := by
  rw [State.zeroed_salt]
  exact getElem_ite_replicate_zero _ s.salt n

theorem zeroed_sbox0_getElem (x : Fin 256) :
    (s.zeroed m).sbox0[x] = if m.getLsbD 3 then 0 else s.sbox0[x] := by
  rw [State.zeroed_sbox0]
  exact getElem_ite_replicate_zero _ s.sbox0 x

theorem zeroed_bufByte (a : Nat) : (s.zeroed m).bufByte a = if m.getLsbD 6 then 0 else s.bufByte a := by
  rw [State.bufByte, State.zeroed_buf]
  split <;> rfl

end zeroed

theorem zeroed_none (s : State) : s.zeroed 0 = s := by
  apply State.ext <;> simp

/-- All eight mask bits together reset everything but the count and the record of a fault. -/
theorem zeroed_all (s : State) :
    s.zeroed 0xFF =
      { s.hardwareReset with cidx := s.cidx, flt := s.flt, cause := s.cause, ecmd := s.ecmd } := by
  apply State.ext <;> simp

/-- ZERO MK|DK clears the bits MKV and DKV of `STATUS` and no other. -/
theorem zeroed_mk_dk_status (s : State) : (s.zeroed 0x05).status = s.status &&& 0xFFFFFFFA#32 := by
  have hkept : ∀ n < 32, n ≠ 0 → n ≠ 2 → (0xFFFFFFFA#32).getLsbD n = true := by decide
  refine BitVec.eq_of_getLsbD_eq fun n hn => ?_
  rw [BitVec.getLsbD_and, status_getLsbD _ hn, status_getLsbD _ hn]
  rcases eq_or_ne n 0 with rfl | h0
  · simp
  rcases eq_or_ne n 2 with rfl | h2
  · simp
  · simp [h0, h2, hkept n hn, State.saltPresent]

/-- Settles O31: every field of the zeroed state stands under its mask bit. -/
theorem zeroClearsExactlyWhatItsMaskSelects : Obligations.ZeroClearsExactlyWhatItsMaskSelects := by
  unfold Obligations.ZeroClearsExactlyWhatItsMaskSelects
  refine ⟨encodeB_eq .zero, fun m s hf => execZero_next.mpr (.inl ⟨hf, rfl⟩), fun s hf =>
    ⟨fun m => ⟨_, exec_zero_normal hf m, ?_⟩, ?_, fun hinv => ?_, fun hst t ht => ?_⟩⟩
  · have flag (b c : Bool) : (if b then false else c) = (c && !b) := by cases b <;> simp
    exact ⟨(s.zeroed_mkv m).trans (flag _ _), zeroed_mkey_getElem s m, s.zeroed_saltv m, zeroed_salt_getElem s m,
      (s.zeroed_dkv m).trans (flag _ _), s.zeroed_dklen m, s.zeroed_dk m,
      (s.zeroed_sbv m).trans (flag _ _), zeroed_sbox0_getElem s m, s.zeroed_h m,
      (s.zeroed_dec m).trans (flag _ _), zeroed_bufByte s m, s.zeroed_blen m, s.zeroed_arg m, s.zeroed_dout m,
      congrArg (· + 1) (s.zeroed_cidx m), (s.zeroed_flt m).trans hf, s.zeroed_cause m, s.zeroed_ecmd m,
      s.zeroed_cfg m, s.zeroed_prog m, s.zeroed_k m⟩
  · rw [exec_zero_normal hf, zeroed_none]
    rfl
  · rw [exec_zero_normal hf, zeroed_all]
    simp [hf, hinv.flt_iff.mp hf, hinv.ecmd_of_normal hf, State.countCommand]
  · rw [exec_zero_normal hf, next_eq_next] at ht
    have h : t.status = (s.zeroed 0x05).status := ht ▸ rfl
    rw [h, zeroed_mk_dk_status, hst]
    rfl

/-! ### BWR, BRD (R108, R109) -/

/-- Settles O33, from what a read gives after a write. -/
theorem bwrWritesOneByteAndMovesOn : Obligations.BwrWritesOneByteAndMovesOn := by
  unfold Obligations.BwrWritesOneByteAndMovesOn
  have hw (v : Byte) : encode (.bwr v) = 0x11000000 ||| v.setWidth 32 := encodeB_eq .bwr v
  refine ⟨hw, fun v s hf hwf => ⟨fun hlt => ?_, fun hge => ?_⟩⟩
  · refine ⟨_, execBwr_next.mpr (.inr (.inr ⟨hf, hlt, rfl⟩)), ?_, fun a ha => ?_, ?_, rfl⟩
    · exact Memory.read_write_same hwf _ v
    · exact Memory.read_write_other v ha.symm
    · exact BitVec.toNat_add s.arg 1
  · exact execBwr_next.mpr (.inr (.inl ⟨hf, hge, hw v ▸ rfl⟩))

theorem exec_brd_normal (hf : s.flt = false) (h : s.arg.toNat < s.cfg.bufSize) :
    exec .brd s =
      .next { s with dout := (s.bufByte s.arg.toNat).setWidth 32, arg := s.arg + 1, cidx := s.cidx + 1 } :=
  execBrd_next.mpr (.inr (.inr ⟨hf, h, rfl⟩))

/-- Settles O34: BRD's answer inside the memory, at its special cases too, and its fault outside. -/
theorem brdReadsOneByteAndMovesOn : Obligations.BrdReadsOneByteAndMovesOn := by
  unfold Obligations.BrdReadsOneByteAndMovesOn
  refine ⟨rfl, fun s hf => execBrd_next.mpr (.inl ⟨hf, rfl⟩), fun s a h => ?_, fun s hf h hz => ?_,
    fun s hf => ⟨fun h => ?_, fun h => ?_⟩⟩
  · exact exec_brd_normal (s := { s.hardwareReset with arg := a }) rfl h
  · refine ⟨_, exec_brd_normal hf h, ?_⟩
    simp only [hz]
    rfl
  · refine ⟨_, _, ?_, ?_, exec_brd_normal hf h⟩
    · exact BitVec.toNat_setWidth_of_le (by omega)
    · exact BitVec.toNat_add s.arg 1
  · exact execBrd_next.mpr (.inr (.inl ⟨hf, h, rfl⟩))

/-! ### SALTW (R110) -/

/-- Setting bit `k` of `SALTV` leaves the others. -/
theorem getLsbD_or_bit (v : BitVec 8) (k : BitVec 3) (n : Nat) :
    (v ||| 1#8 <<< k.toNat).getLsbD n = (decide (n = k.toNat) || v.getLsbD n) := by
  rw [BitVec.getLsbD_or, Bool.or_comm, ← BitVec.twoPow_eq, BitVec.getLsbD_twoPow]
  simp [k.isLt, eq_comm]

theorem eq_0xFF_iff (v : BitVec 8) : v = 0xFF ↔ ∀ n : Nat, n < 8 → v.getLsbD n = true := by
  have hones : ∀ n < 8, (0xFF#8).getLsbD n = true := by decide
  refine ⟨fun h n hn => h ▸ hones n hn, fun h => BitVec.eq_of_getLsbD_eq fun n hn => ?_⟩
  exact (h n hn).trans (hones n hn).symm

/-- `STATUS.SALTP` is 1 when all eight valid bits are (10_state.md R27, R29). -/
theorem status_saltp (s : State) :
    s.status.getLsbD 1 = decide (∀ n : Nat, n < 8 → s.saltv.getLsbD n = true) := by
  obtain ⟨-, h, -⟩ := statusShowsTheFlagsInTheirBits s
  rw [h]
  exact decide_eq_decide.mpr (eq_0xFF_iff s.saltv)

theorem saltPartial_of_ne (h0 : s.saltv ≠ 0x00) (h1 : s.saltv ≠ 0xFF) : s.saltPartial = true := by
  simpa [State.saltPartial, State.saltPresent, State.saltAbsent] using ⟨h1, h0⟩

/-- A command that cannot fault keeps what its effect keeps. -/
theorem kept_of_neverFaults {α : Type} {f : State → α} {u : State}
    (h : (s.flt = true ∧ t = s) ∨ (s.flt = false ∧ t = u.countCommand)) (hu : f u.countCommand = f s) :
    f t = f s := by
  obtain ⟨-, rfl⟩ | ⟨-, rfl⟩ := h
  · rfl
  · exact hu

/-- A command with one fault condition keeps what the fault and its effect keep. -/
theorem kept_of_oneFault {α : Type} {f : State → α} {u : State} {c : Cause} {w : Word} {p q : Prop}
    (h : (s.flt = true ∧ t = s) ∨ (s.flt = false ∧ p ∧ t = s.recordFault c w) ∨
      (s.flt = false ∧ q ∧ t = u.countCommand))
    (hc : f (s.recordFault c w) = f s) (hu : f u.countCommand = f s) : f t = f s := by
  obtain ⟨-, rfl⟩ | ⟨-, -, rfl⟩ | ⟨-, -, rfl⟩ := h
  · rfl
  · exact hc
  · exact hu

/-- `SALTV` is written by SALTW, ZERO and SRESET alone (10_state.md R20). -/
theorem exec_keeps_saltv (hi : i.op ∉ [.saltw, .zero, .sreset]) (h : exec i s = .next t) :
    t.saltv = s.saltv := by
  cases i with
  | nop => exact kept_of_neverFaults (execNop_next.mp h) rfl
  | arglo v => exact kept_of_neverFaults (execArglo_next.mp h) rfl
  | arghi v => exact kept_of_neverFaults (execArghi_next.mp h) rfl
  | rd sel8 => obtain ⟨-, -, rfl⟩ | ⟨-, -, rfl⟩ | ⟨v, -, -, rfl⟩ | ⟨v, -, -, rfl⟩ := execRd_next.mp h <;> rfl
  | setblen => exact kept_of_oneFault (execSetblen_next.mp h) rfl rfl
  | bwr v => exact kept_of_oneFault (execBwr_next.mp h) rfl rfl
  | brd => exact kept_of_oneFault (execBrd_next.mp h) rfl rfl
  | hinit => exact kept_of_neverFaults (execHinit_next.mp h) rfl
  | hbyte v => exact kept_of_neverFaults (execHbyte_next.mp h) rfl
  | oracle => exact kept_of_neverFaults (execOracle_next.mp h) rfl
  | mkrec => exact kept_of_neverFaults (execMkrec_next.mp h) rfl
  | kdf => obtain ⟨-, rfl⟩ | ⟨-, -, rfl⟩ | ⟨-, -, -, -, rfl⟩ | ⟨-, -, -, -, rfl⟩ := execKdf_next.mp h <;> rfl
  | sbinit => exact kept_of_oneFault (execSbinit_next.mp h) rfl rfl
  | crypt => obtain ⟨-, rfl⟩ | ⟨-, -, rfl⟩ | ⟨-, -, -, rfl⟩ := execCrypt_next.mp h <;> rfl
  | saltw | zero | sreset => simp [Instr.op] at hi

/-- ZERO without mask bit 1 keeps `SALTV`. -/
theorem exec_zero_keeps_saltv {m : Byte} (hm : m.getLsbD 1 = false) (h : exec (.zero m) s = .next t) :
    t.saltv = s.saltv :=
  kept_of_neverFaults (f := State.saltv) (execZero_next.mp h)
    ((s.zeroed_saltv m).trans (if_neg (Bool.eq_false_iff.mp hm)))

/-- SALTW never clears a valid bit. -/
theorem exec_saltw_saltv_ne_zero {k : BitVec 3} {v : Byte} (h0 : s.saltv ≠ 0)
    (h : exec (.saltw k v) s = .next t) : t.saltv ≠ 0 := by
  obtain ⟨-, rfl⟩ | ⟨-, rfl⟩ := execSaltw_next.mp h
  · exact h0
  · exact fun hor => h0 (BitVec.or_eq_zero_iff.mp hor).1

/-- Only SRESET and ZERO with mask bit 1 make a salt absent. -/
theorem absent_salt_of_exec (h : exec i s = .next t) (h0 : s.saltv ≠ 0) (ht : t.saltv = 0) :
    i = .sreset ∨ ∃ m, i = .zero m ∧ m.getLsbD 1 = true := by
  cases i with
  | sreset => exact .inl rfl
  | zero m =>
    cases hm : m.getLsbD 1 with
    | true => exact .inr ⟨m, rfl, hm⟩
    | false => exact absurd (exec_zero_keeps_saltv hm h ▸ ht) h0
  | saltw k v => exact absurd ht (exec_saltw_saltv_ne_zero h0 h)
  | _ => exact absurd (exec_keeps_saltv (by simp [Instr.op]) h ▸ ht) h0

/-- Settles O35: SALTW's effect bit by bit, KDF's fault on a partial salt, and who makes a salt absent. -/
theorem saltwWritesOneSaltByteAndItsValidBit : Obligations.SaltwWritesOneSaltByteAndItsValidBit := by
  unfold Obligations.SaltwWritesOneSaltByteAndItsValidBit
  refine ⟨encodeS_eq .saltw, by decide, fun s hf k v => ?_, fun s hf h0 h1 => ?_,
    fun i s t => absent_salt_of_exec, fun s => ?_⟩
  · refine ⟨_, execSaltw_next.mpr (.inr ⟨hf, rfl⟩), fun n => ?_, fun n _ => getLsbD_or_bit s.saltv k n,
      status_saltp _, rfl⟩
    simp [Vector.getElem_set, eq_comm]
  · exact execKdf_next.mpr (.inr (.inl ⟨hf, .inr (saltPartial_of_ne h0 h1), rfl⟩))
  · refine ⟨_, execSaltw_next.mpr (.inr ⟨rfl, rfl⟩), ?_⟩
    simp [State.status, State.saltPresent, bitWord]

end Sys2Proof.Machine
end

section
/-! PROOFS. The family of spec/41_hash.md: the two halves of a byte step and the fold over a message (R120), and
HINIT and HBYTE in the normal state (R121, R122). -/

namespace Sys2Proof.Machine

variable {s : State}

/-! ### The hash function (41_hash.md R120) -/

/-- The product `y` of a byte step, which the step folds. -/
def hstepProduct (h : Word) (b : Byte) : Word := hashMul * (h ^^^ b.setWidth 32)

theorem hstep_eq_xor_shift (h : Word) (b : Byte) :
    hstep h b = hstepProduct h b ^^^ (hstepProduct h b >>> 16) := rfl

theorem hstepProduct_toNat (h : Word) (b : Byte) :
    (hstepProduct h b).toNat = ((h ^^^ b.setWidth 32).toNat * 0x01000193) % 2 ^ 32 := by
  rw [hstepProduct, BitVec.mul_comm, BitVec.toNat_mul]
  rfl

/-- The shift brings zeros into the high half. -/
theorem extractLsb'_high_xor_shift (y : Word) :
    (y ^^^ (y >>> 16)).extractLsb' 16 16 = y.extractLsb' 16 16 := by
  ext n hn
  have hz : y.getLsbD (16 + (16 + n)) = false := BitVec.getLsbD_of_ge y _ (by omega)
  simp [hz]

/-- The shift brings the high half down onto the low one. -/
theorem extractLsb'_low_xor_shift (y : Word) :
    (y ^^^ (y >>> 16)).extractLsb' 0 16 = y.extractLsb' 0 16 ^^^ y.extractLsb' 16 16 := by
  ext n hn
  simp

theorem nlHash_concat (m : List Byte) (b : Byte) : nlHash (m ++ [b]) = hstep (nlHash m) b :=
  List.foldl_concat hstep hashInit b m

/-- Settles O36, by the product of the step and the last byte of the fold. -/
theorem hashFoldsItsByteStepOverTheMessage : Obligations.HashFoldsItsByteStepOverTheMessage := by
  unfold Obligations.HashFoldsItsByteStepOverTheMessage
  refine ⟨fun h b => ⟨hstepProduct h b, hstepProduct_toNat h b, hstep_eq_xor_shift h b, ?_, ?_⟩, rfl,
    nlHash_concat⟩
  · exact extractLsb'_high_xor_shift _
  · exact extractLsb'_low_xor_shift _

/-! ### HINIT, HBYTE (R121, R122) -/

/-- HINIT never faults. -/
theorem exec_hinit_normal (hf : s.flt = false) :
    exec .hinit s = .next (s.setH hashInit).countCommand :=
  execHinit_next.mpr (.inr ⟨hf, rfl⟩)

/-- HBYTE never faults. -/
theorem exec_hbyte_normal (hf : s.flt = false) (v : Byte) :
    exec (.hbyte v) s = .next (s.setH (hstep s.h v)).countCommand :=
  execHbyte_next.mpr (.inr ⟨hf, rfl⟩)

/-- Settles O37: the normal engine completes HINIT with reset's own value of `H`. -/
theorem hinitStartsAHash : Obligations.HinitStartsAHash := by
  unfold Obligations.HinitStartsAHash
  exact ⟨rfl, State.hardwareReset_h, fun _ => exec_hinit_normal⟩

/-- HBYTE takes `H` from the hash of a message to that of the message and its byte. -/
theorem exec_hbyte_of_nlHash {m : List Byte} (hf : s.flt = false) (hm : s.h = nlHash m) (v : Byte) :
    ∃ t, exec (.hbyte v) s = .next t ∧ t.h = nlHash (m ++ [v]) := by
  refine ⟨_, exec_hbyte_normal hf v, ?_⟩
  rw [State.countCommand_h, State.setH_h, nlHash_concat, hm]

/-- Settles O38, from the word of format B and the normal engine's HBYTE. -/
theorem hbyteFoldsOneByteIn : Obligations.HbyteFoldsOneByteIn := by
  unfold Obligations.HbyteFoldsOneByteIn
  exact ⟨encodeB_eq .hbyte, fun v _ hf => exec_hbyte_normal hf v,
    fun _ v _ hf hm => exec_hbyte_of_nlHash hf hm v, by decide⟩

end Sys2Proof.Machine
end

section
/-! PROOFS. The family of spec/42_oracle.md: the walk of the oracle (R130), the word of a stride (R131), and ORACLE in
the normal state (R133). -/

namespace Sys2Proof.Machine

variable {s : State}

/-! ### The walk (42_oracle.md R130) -/

theorem mem_strideIndices {i len : Nat} : i ∈ strideIndices len ↔ i < len ∧ i % 4 = 0 := by
  rw [strideIndices, List.mem_map]
  constructor
  · rintro ⟨n, hn, rfl⟩
    have := List.mem_range.mp hn
    omega
  · rintro ⟨hi, h4⟩
    exact ⟨i / 4, List.mem_range.mpr (by omega), by omega⟩

theorem strideIndices_pairwise_lt (len : Nat) : (strideIndices len).Pairwise (· < ·) :=
  List.pairwise_lt_range.map (4 * ·) fun _ _ h => Nat.mul_lt_mul_of_pos_left h (by decide)

/-- Two increasing lists with the same members are one list. -/
theorem strideIndices_eq_filter (len : Nat) :
    strideIndices len = (List.range len).filter (fun i => i % 4 = 0) :=
  (strideIndices_pairwise_lt len).eq_of_mem_iff (List.pairwise_lt_range.filter _) fun i => by
    simp [mem_strideIndices]

theorem strideIndices_length (len : Nat) : (strideIndices len).length = (len + 3) / 4 := by
  rw [strideIndices, List.length_map, List.length_range]

theorem oracleOf_eq_decide (t : List Byte) (seed : Word) :
    oracleOf t seed = decide ((oracleAcc t seed).toNat % 3 = 0) :=
  Bool.beq_eq_decide_eq _ _

theorem oracleStride_eq_rotateLeft (t : List Byte) (acc : Word) (i : Nat) :
    oracleStride t acc i =
      (acc ^^^ oracleWord t i).rotateLeft (i % 32) ^^^
        ((acc ^^^ oracleWord t i).rotateLeft (i % 32)).rotateLeft 13 := by
  simp only [oracleStride, rotl32_eq_rotateLeft]

/-- Settles O40, by the members of the increasing list of stride indices. -/
theorem theOracleWalksTheTableInStridesOfFour : Obligations.TheOracleWalksTheTableInStridesOfFour := by
  unfold Obligations.TheOracleWalksTheTableInStridesOfFour
  exact ⟨fun t seed => ⟨oracleOf_eq_decide t seed, rfl⟩,
    fun len => ⟨strideIndices_eq_filter len, strideIndices_length len⟩, oracleStride_eq_rotateLeft⟩

/-! ### The word of a stride (R131) -/

/-- `T[n mod L]`, the byte that a stride reads for the index `n`. -/
def cyclicByte (t : List Byte) (n : Nat) : Byte := t.getD (n % t.length) 0

theorem oracleWord_eq_append (t : List Byte) (i : Nat) :
    oracleWord t i = cyclicByte t (i + 0) ++ cyclicByte t (i + 1) ++ cyclicByte t (i + 2) ++ cyclicByte t (i + 3) :=
  rfl

/-- In a non-empty table every index, taken cyclically, is one of the table's. -/
theorem getElem?_mod_length {t : List Byte} (ht : 1 ≤ t.length) (n : Nat) :
    t[n % t.length]? = some (cyclicByte t n) := by
  have hn : n % t.length < t.length := Nat.mod_lt n ht
  rw [cyclicByte, List.getD_eq_getElem _ _ hn, List.getElem?_eq_getElem hn]

/-- In a table of one byte every index, taken cyclically, is that byte's. -/
theorem cyclicByte_singleton (a : Byte) (n : Nat) : cyclicByte [a] n = a := by
  simp [cyclicByte, Nat.mod_one]

/-- Four bytes appended, as a number: the first is the most significant. -/
theorem append_four_bytes_toNat (a b c d : Byte) :
    (a ++ b ++ c ++ d).toNat = a.toNat * 2 ^ 24 + b.toNat * 2 ^ 16 + c.toNat * 2 ^ 8 + d.toNat := by
  rw [toNat_cat, toNat_cat, toNat_cat]
  omega

/-- Settles O41, from the four cyclic bytes of the word. -/
theorem theOracleWordIsBigEndianAndCyclic : Obligations.TheOracleWordIsBigEndianAndCyclic := by
  unfold Obligations.TheOracleWordIsBigEndianAndCyclic
  refine ⟨fun t i ht => ?_, fun a b c => ?_, fun a => ?_⟩
  · refine ⟨_, _, _, _, getElem?_mod_length ht _, getElem?_mod_length ht _, getElem?_mod_length ht _,
      getElem?_mod_length ht _, ?_⟩
    rw [oracleWord_eq_append]
    exact append_four_bytes_toNat _ _ _ _
  · simp [oracleWord_eq_append, cyclicByte]
  · simp only [oracleWord_eq_append, cyclicByte_singleton]

/-! ### ORACLE (R133) -/

theorem oracleOf_eq_decide_dvd (t : List Byte) (seed : Word) :
    oracleOf t seed = decide (3 ∣ (oracleAcc t seed).toNat) := by
  simp only [oracleOf_eq_decide, Nat.dvd_iff_mod_eq_zero]

/-- ORACLE never faults. -/
theorem exec_oracle_normal (hf : s.flt = false) :
    exec .oracle s = .next (s.setDec (oracleOf s.cfg.secret s.arg)).countCommand :=
  execOracle_next.mpr (.inr ⟨hf, rfl⟩)

/-- The rule's example: one stride over `48 6F 6C 79` from the seed 0. -/
theorem oracleAcc_example : oracleAcc [0x48, 0x6F, 0x6C, 0x79] 0 = 0xB4F15465 := by decide

/-- Settles O39: the normal engine's ORACLE, and its decision on the example's accumulator. -/
theorem oracleLatchesItsDecision : Obligations.OracleLatchesItsDecision := by
  unfold Obligations.OracleLatchesItsDecision
  refine ⟨rfl, fun s hf => ?_, oracleAcc_example, fun s hf hsecret harg => ?_⟩
  · rw [exec_oracle_normal hf, oracleOf_eq_decide_dvd]
    rfl
  · refine ⟨_, exec_oracle_normal hf, ?_⟩
    rw [State.countCommand_dec, State.setDec_dec, hsecret, harg, oracleOf_eq_decide, oracleAcc_example]
    rfl

end Sys2Proof.Machine
end

section
/-! PROOFS. The family of spec/43_master_key.md: Reconstruct as a library rotation (R140), MKREC in the normal state,
and the independence of `DOUT` from `MK` (R141). -/

namespace Sys2Proof.Machine

variable {s u : State}

/-! ### Reconstruct and MKREC (43_master_key.md R140, R141) -/

theorem reconstruct_eq_rotateLeft (e : Byte) : reconstruct e = e.rotateLeft 3 ^^^ 0x5A := by
  rw [reconstruct, rotl8_eq_rotateLeft]
  rfl

theorem masterKey_getElem (cfg : Config) (n : Fin 16) :
    (masterKey cfg)[n] = (cfg.obf[n]).rotateLeft 3 ^^^ 0x5A :=
  (Vector.getElem_map reconstruct n.isLt).trans (reconstruct_eq_rotateLeft _)

/-- MKREC never faults. -/
theorem exec_mkrec_normal (hf : s.flt = false) :
    exec .mkrec s = .next (s.setMk (masterKey s.cfg) true).countCommand :=
  execMkrec_next.mpr (.inr ⟨hf, rfl⟩)

/-! ### What the host reads from an answer does not depend on `MK` (R141) -/

/-- The `DOUT` of the state that an answer goes on in. -/
def answeredDout : Result → Option Word
  | .next t => some t.dout
  | .fault _ => none
  | .refused _ => none

theorem answeredDout_eq_some {r : Result} {v : Word} :
    answeredDout r = some v ↔ ∃ t, r = .next t ∧ t.dout = v := by
  cases r <;> simp [answeredDout]

/-- Two branches on one condition leave the same `DOUT` when their arms do. -/
theorem answeredDout_ite_congr {p : Prop} [Decidable p] {a b a' b' : Result}
    (ha : answeredDout a = answeredDout a') (hb : answeredDout b = answeredDout b') :
    answeredDout (if p then a else b) = answeredDout (if p then a' else b') := by
  split
  · exact ha
  · exact hb

/-- The envelope passes an equal `DOUT` on: it reads `FLT` alone, and an ignored command leaves `DOUT` as it is. -/
theorem answeredDout_unlessFaulted_congr {r r' : Result} (hflt : u.flt = s.flt) (hdout : u.dout = s.dout)
    (hr : answeredDout r = answeredDout r') :
    answeredDout (unlessFaulted u r) = answeredDout (unlessFaulted s r') := by
  rw [unlessFaulted, unlessFaulted, hflt]
  exact answeredDout_ite_congr (congrArg some hdout) hr

/-- No register that RD selects shows `MK`; `STATUS` shows `MKV` alone (10_state.md R29, R34). -/
theorem selected_with_mkey (s : State) (mkey : Vector Byte 16) (sel8 : Byte) :
    { s with mkey := mkey }.selected sel8 = s.selected sel8 := rfl

theorem execRd_answeredDout_with_mkey (s : State) (mkey : Vector Byte 16) (sel8 : Byte) :
    answeredDout (execRd sel8 { s with mkey := mkey }) = answeredDout (execRd sel8 s) := by
  rw [execRd, execRd, selected_with_mkey]
  cases s.selected sel8 with
  | none => exact answeredDout_unlessFaulted_congr rfl rfl rfl
  | some v => exact answeredDout_ite_congr rfl rfl

/-- Every command takes the same branch whatever stands in `MK`, and leaves the same `DOUT` there. -/
theorem exec_answeredDout_with_mkey (i : Instr) (s : State) (mkey : Vector Byte 16) :
    answeredDout (exec i { s with mkey := mkey }) = answeredDout (exec i s) := by
  cases i with
  | sreset => rfl
  | rd sel8 => exact execRd_answeredDout_with_mkey s mkey sel8
  | zero mask8 =>
    refine answeredDout_unlessFaulted_congr rfl rfl (congrArg some ?_)
    simp only [State.countCommand_dout, State.zeroed_dout]
  | setblen | bwr | brd | sbinit =>
    exact answeredDout_unlessFaulted_congr rfl rfl (answeredDout_ite_congr rfl rfl)
  | crypt =>
    exact answeredDout_unlessFaulted_congr rfl rfl
      (answeredDout_ite_congr rfl (answeredDout_ite_congr rfl rfl))
  | kdf =>
    exact answeredDout_unlessFaulted_congr rfl rfl
      (answeredDout_ite_congr rfl (answeredDout_ite_congr rfl (answeredDout_ite_congr rfl rfl)))
  | nop | arglo | arghi | saltw | hinit | hbyte | oracle | mkrec =>
    exact answeredDout_unlessFaulted_congr rfl rfl rfl

/-- Settles O43: the normal engine's MKREC byte by byte, and the `DOUT` of any command's answer. -/
theorem mkrecReconstructsTheMasterKey : Obligations.MkrecReconstructsTheMasterKey := by
  unfold Obligations.MkrecReconstructsTheMasterKey
  refine ⟨rfl, fun s hf => ?_, reconstruct_eq_rotateLeft, rfl, rfl, fun i s t mkey h => ?_⟩
  · exact ⟨_, exec_mkrec_normal hf, masterKey_getElem s.cfg, rfl⟩
  · rw [← answeredDout_eq_some, exec_answeredDout_with_mkey, h]
    rfl

end Sys2Proof.Machine
end

section
/-! PROOFS. The family of spec/44_kdf.md: the message and the output byte of a position (R150, R151), and KDF in the
normal state (R153). -/

namespace Sys2Proof.Machine

variable {s : State}

/-! ### The function (44_kdf.md R150, R151) -/

theorem kdfMessage_some (mk salt : List Byte) (p : Nat) :
    kdfMessage mk (some salt) p = mk ++ salt ++ [BitVec.ofNat 8 p] := rfl

theorem kdfMessage_none (mk : List Byte) (p : Nat) :
    kdfMessage mk none p = mk ++ [BitVec.ofNat 8 p] := by
  simp [kdfMessage]

/-- The trailing counter is a byte, so it wraps every 256 positions. -/
theorem kdfMessage_add_256 (mk : List Byte) (salt : Option (List Byte)) (p : Nat) :
    kdfMessage mk salt (p + 256) = kdfMessage mk salt p := by
  have hp : BitVec.ofNat 8 (p + 256) = BitVec.ofNat 8 p :=
    BitVec.eq_of_toNat_eq (Nat.add_mod_right p 256)
  rw [kdfMessage, hp, kdfMessage]

theorem kdfn_getElem? (mk : List Byte) (salt : Option (List Byte)) {p n : Nat} (hp : p < n) :
    (kdfn mk salt n)[p]? = some ((nlHash (kdfMessage mk salt p)).setWidth 8) := by
  rw [kdfn, List.getElem?_map, List.getElem?_range hp, Option.map_some, BitVec.setWidth_eq_extractLsb' (by decide)]

theorem kdfn_getElem?_add_256 (mk : List Byte) (salt : Option (List Byte)) {p n : Nat} (hp : p + 256 < n) :
    (kdfn mk salt n)[p + 256]? = (kdfn mk salt n)[p]? := by
  rw [kdfn_getElem? mk salt hp, kdfMessage_add_256, kdfn_getElem? mk salt (by omega)]

/-- Settles O45, from the message of each position. -/
theorem kdfOutputHashesEachPositionOnItsOwn : Obligations.KdfOutputHashesEachPositionOnItsOwn := by
  unfold Obligations.KdfOutputHashesEachPositionOnItsOwn
  refine fun mk n => ⟨fun salt => kdfn_length mk salt n, fun salt _ p hp => ?_, fun p hp => ?_, fun _ => rfl,
    fun salt p => kdfn_getElem?_add_256 mk salt⟩
  · rw [kdfn_getElem? mk _ hp, kdfMessage_some]
  · rw [kdfn_getElem? mk _ hp, kdfMessage_none]

/-! ### KDF (R153) -/

theorem saltPartial_of_present (h : s.saltv = 0xFF) : s.saltPartial = false := by
  simp [State.saltPartial, State.saltPresent, h]

theorem saltPartial_of_absent (h : s.saltv = 0x00) : s.saltPartial = false := by
  simp [State.saltPartial, State.saltAbsent, h]

theorem saltOperand_of_present (h : s.saltv = 0xFF) : s.saltOperand = some s.salt.toList := by
  simp [State.saltOperand, State.saltPresent, h]

theorem saltOperand_of_absent (h : s.saltv = 0x00) : s.saltOperand = none := by
  simp [State.saltOperand, State.saltPresent, h]

/-- The two tests of the rule that answer with cause 2. -/
theorem exec_kdf_uninit (hf : s.flt = false) (h : s.mkv = false ∨ s.saltPartial = true) :
    exec .kdf s = .next (s.recordFault .uninitOperand (encode .kdf)) :=
  execKdf_next.mpr (.inr (.inl ⟨hf, h, rfl⟩))

/-- The last test of the rule, with an operand that passes the two before it. -/
theorem exec_kdf_too_long (hf : s.flt = false) (hm : s.mkv = true) (hp : s.saltPartial = false)
    (hlt : s.cfg.dkMax < s.arg.toNat) : exec .kdf s = .next (s.recordFault .length (encode .kdf)) :=
  execKdf_next.mpr (.inr (.inr (.inl ⟨hf, hm, hp, hlt, rfl⟩)))

/-- KDF passes its three tests and completes. -/
theorem exec_kdf_derives {salt : Option (List Byte)} (hf : s.flt = false) (hm : s.mkv = true)
    (hp : s.saltPartial = false) (hsalt : s.saltOperand = salt) (hle : s.arg.toNat ≤ s.cfg.dkMax) :
    exec .kdf s = .next (s.setDk (kdfn s.mkey.toList salt s.arg.toNat) s.arg true).countCommand :=
  execKdf_next.mpr (.inr (.inr (.inr ⟨hf, hm, hp, hle, by rw [hsalt]⟩)))

/-- Settles O47: the normal engine's KDF for each salt, its three tests in order, and the rule's example. -/
theorem kdfDerivesTheKeyOrFaultsInOrder : Obligations.KdfDerivesTheKeyOrFaultsInOrder := by
  unfold Obligations.KdfDerivesTheKeyOrFaultsInOrder
  refine ⟨rfl, fun s hf => ⟨fun hm h => ?_, fun hm h => ?_, fun hm => ?_, fun hm h0 h1 => ?_,
    fun hm h => ?_⟩, by decide, by decide⟩
  · exact exec_kdf_derives hf hm (saltPartial_of_present h) (saltOperand_of_present h)
  · exact exec_kdf_derives hf hm (saltPartial_of_absent h) (saltOperand_of_absent h)
  · exact exec_kdf_uninit hf (.inl hm)
  · exact exec_kdf_uninit hf (.inr (saltPartial_of_ne h0 h1))
  · exact exec_kdf_too_long hf hm (h.elim saltPartial_of_absent saltPartial_of_present)

end Sys2Proof.Machine
end

section
/-! PROOFS. The family of spec/45_sbox_init.md: one iteration as a swap with the keyed index (R160, R161), the
permutation that the swaps keep (R165), and SBINIT in the normal state (R163). -/

namespace Sys2Proof.Machine

variable {s : State}

/-! ### One iteration (45_sbox_init.md R160, R161) -/

/-- `add` of iteration `i`: `addA` or `addB`, by the decision. -/
def sboxAdd (d : Bool) (i : Nat) : Byte := if d then addA i else addB i

/-- The new `j` of iteration `i`, from `S[i]` before the swap. -/
def sboxIndex (dk : List Byte) (d : Bool) (sj : Table × Byte) (i : Nat) : Byte :=
  sj.2 + sj.1.get (BitVec.ofNat 8 i) + keyByte dk i + sboxAdd d i

/-- The index that iteration `i` swaps with the new `j`. -/
def sboxPartner (d : Bool) (i : Byte) : Byte := if d then i else i + 1

/-- Both arms are one swap, with the partner and the addend of the arm. -/
theorem sboxStep_eq_swapAt (dk : List Byte) (d : Bool) (sj : Table × Byte) (i : Nat) :
    sboxStep dk d sj i =
      (sj.1.swapAt (sboxPartner d (BitVec.ofNat 8 i)) (sboxIndex dk d sj i), sboxIndex dk d sj i) := by
  cases d <;> rfl

theorem sboxRun_succ (dk : List Byte) (d : Bool) (n : Nat) :
    sboxRun dk d (n + 1) = sboxStep dk d (sboxRun dk d n) n := by
  rw [sboxRun, List.range_succ, List.foldl_concat]
  rfl

theorem sboxAdd_toNat (d : Bool) (i : Nat) :
    (sboxAdd d i).toNat = if d then i * i / 8 % 256 else i * 7 % 256 := by
  cases d
  · rfl
  · exact congrArg (· % 256) (Nat.shiftRight_eq_div_pow (i * i) 3)

theorem keyByte_toNat (dk : List Byte) (i : Nat) :
    (keyByte dk i).toNat = if dk = [] then 0 else (dk.getD (i % dk.length) 0).toNat := by
  simp only [keyByte, List.length_eq_zero_iff, apply_ite BitVec.toNat]
  rfl

/-- The sum on bytes is the sum of the numbers, reduced modulo 256. -/
theorem sboxIndex_toNat (dk : List Byte) (d : Bool) (t : Table) (j i : Byte) :
    (sboxIndex dk d (t, j) i.toNat).toNat =
      (j.toNat + (t.get i).toNat + (keyByte dk i.toNat).toNat + (sboxAdd d i.toNat).toNat) % 256 := by
  simp [sboxIndex, BitVec.toNat_add]

/-- Settles O48: the fold one iteration at a time, and the swap that both arms are. -/
theorem theSboxIsBuiltBySwapsWithTheKeyedIndex : Obligations.TheSboxIsBuiltBySwapsWithTheKeyedIndex := by
  unfold Obligations.TheSboxIsBuiltBySwapsWithTheKeyedIndex
  refine ⟨fun dk d => ⟨rfl, rfl, Table.identity_get, sboxRun_succ dk d⟩, fun dk d t j i => ?_⟩
  refine ⟨_, _, sboxStep_eq_swapAt dk d (t, j) i.toNat, ?_, ?_⟩
  · rw [sboxIndex_toNat, keyByte_toNat, sboxAdd_toNat]
  · rw [BitVec.ofNat_toNat, BitVec.setWidth_eq]
    exact Table.get_swapAt t _ _

/-! ### The permutation (R165) -/

/-- The identity is a permutation, and each iteration is a swap. -/
theorem sboxRun_isPermutation (dk : List Byte) (d : Bool) (n : Nat) : (sboxRun dk d n).1.IsPermutation := by
  induction n with
  | zero => exact Table.identity_isPermutation
  | succ n ih =>
    rw [sboxRun_succ, sboxStep_eq_swapAt]
    exact Table.isPermutation_swapAt ih _ _

/-- Settles O49, at the 256th iteration. -/
theorem theInitialSboxIsAPermutation : Obligations.TheInitialSboxIsAPermutation := by
  unfold Obligations.TheInitialSboxIsAPermutation
  exact fun dk d => sboxRun_isPermutation dk d 256

/-! ### SBINIT (R163) -/

/-- With a DerivedKey of any length SBINIT completes. -/
theorem exec_sbinit_builds (hf : s.flt = false) (hk : s.dkv = true) :
    exec .sbinit s = .next (s.setSbox (sboxInit s.dk (sboxDecision s.cfg)) true).countCommand :=
  execSbinit_next.mpr (.inr (.inr ⟨hf, hk, rfl⟩))

/-- Without a DerivedKey SBINIT takes cause 2. -/
theorem exec_sbinit_uninit (hf : s.flt = false) (hk : s.dkv = false) :
    exec .sbinit s = .next (s.recordFault .uninitOperand (encode .sbinit)) :=
  execSbinit_next.mpr (.inr (.inl ⟨hf, hk, rfl⟩))

/-- The rule's example: the empty key in the true arm, after `i = 3`. -/
theorem sboxRun_example : (sboxRun [] true 4).1.toList.take 8 = [0, 1, 3, 6, 4, 5, 2, 7] := by decide +kernel

/-- Settles O51: the normal engine's SBINIT with and without a DerivedKey, and the rule's example. -/
theorem sbinitBuildsTheSboxFromTheKey : Obligations.SbinitBuildsTheSboxFromTheKey := by
  unfold Obligations.SbinitBuildsTheSboxFromTheKey
  exact ⟨rfl, fun s hf => ⟨exec_sbinit_builds hf, exec_sbinit_uninit hf⟩, sboxRun_example⟩

end Sys2Proof.Machine
end

section
/-! PROOFS. The family of spec/60_exceptions.md: what a fault records (R204), the conditions of the fault table and the
commands that never fault (R200), and the faulted state (R206). -/

namespace Sys2Proof

variable {w : Word} {i : Instr}

/-- A word that decodes is the word of its command, so a meaning that records `encode i` records the word presented
(30_encoding.md R86). -/
theorem encode_of_decode (h : decode w = .ok i) : encode i = w := by
  obtain ⟨hc, hr, hi, -⟩ := decode_ok_iff_fields.mp h
  rw [← hi]
  cases hop : i.op <;> rw [hop] at hc hr
  case nop | sreset | setblen | brd | hinit | oracle | mkrec | kdf | sbinit | crypt =>
    exact (congrArg (· ++ 0#24) hc).trans (word_n (eq_of_beq hr))
  case rd | zero | bwr | hbyte =>
    exact (congrArg (· ++ 0#16 ++ byteField w) hc).trans (word_b (eq_of_beq hr))
  case arglo | arghi =>
    exact (congrArg (· ++ 0#8 ++ halfField w) hc).trans (word_h (eq_of_beq hr))
  case saltw =>
    exact (congrArg (· ++ 0#13 ++ idxField w ++ byteField w) hc).trans (word_s (eq_of_beq hr))

end Sys2Proof

namespace Sys2Proof.Machine

variable {s t : State} {w : Word} {i : Instr} {sel8 : Byte}

/-! ### What a fault records (60_exceptions.md R204) -/

/-- Every word but SRESET's answers in one of the four ways, and the word its fault would record is itself. -/
theorem presentWord_outcome_self (hw : decode w ≠ .ok .sreset) (h : presentWord w s = .next t) :
    CommandOutcome w s t := by
  cases hd : decode w with
  | ok i =>
    rw [presentWord_of_ok hd] at h
    exact encode_of_decode hd ▸ exec_outcome (fun hi => hw (hi ▸ hd)) h
  | error e =>
    rw [presentWord_of_error hd] at h
    exact presentIllegal_outcome h

/-- The normal engine becomes faulted only by taking a fault. -/
theorem CommandOutcome.eq_recordFault (ho : CommandOutcome w s t) (hs : s.flt = false) (ht : t.flt = true) :
    ∃ c, t = s.recordFault c w := by
  cases ho with
  | ignored hf => simp [hs] at hf
  | read hf => simp [hs] at hf
  | faulted _ c => exact ⟨c, rfl⟩
  | completed _ hu => simp [hu.flt, hs] at ht

theorem Cause.code_cases (c : Cause) : c.code = 1 ∨ c.code = 2 ∨ c.code = 3 ∨ c.code = 4 := by
  cases c <;> decide

/-- Settles O14: SRESET leaves no fault, and any other word's fault is `recordFault` of that word. -/
theorem aFaultRecordsCauseAndWordAndNothingElse : Obligations.AFaultRecordsCauseAndWordAndNothingElse := by
  unfold Obligations.AFaultRecordsCauseAndWordAndNothingElse
  intro w s t hs h ht
  have hw : decode w ≠ .ok .sreset := by
    intro hd
    rw [presentWord_sreset hd, next_eq_next] at h
    simp [h] at ht
  obtain ⟨c, rfl⟩ := (presentWord_outcome_self hw h).eq_recordFault hs ht
  exact ⟨rfl, c.code_cases⟩

/-! ### The faulted state (60_exceptions.md R206) -/

/-- The selector of a well-formed RD names a register. -/
theorem exists_selected_of_wf (s : State) (h : (Instr.rd sel8).wf = true) : ∃ v, s.selected sel8 = some v := by
  refine Option.ne_none_iff_exists'.mp fun hnone => ?_
  exact Bool.false_ne_true (((selected_none_iff s sel8).mp hnone).symm.trans h)

/-- The faulted engine ignores every command but SRESET and RD. -/
theorem exec_of_faulted (hf : s.flt = true) (hreset : i ≠ .sreset) (hrd : ∀ sel8, i ≠ .rd sel8) :
    exec i s = .next s := by
  cases i with
  | sreset => exact absurd rfl hreset
  | rd sel8 => exact absurd rfl (hrd sel8)
  | _ => exact unlessFaulted_faulted hf _

/-- The faulted engine ignores every word but those of SRESET and RD, legal or not. -/
theorem presentWord_of_faulted (hf : s.flt = true) (hreset : decode w ≠ .ok .sreset)
    (hrd : ∀ sel8, decode w ≠ .ok (.rd sel8)) : presentWord w s = .next s := by
  cases hd : decode w with
  | ok i =>
    rw [presentWord_of_ok hd]
    exact exec_of_faulted hf (fun hi => hreset (hi ▸ hd)) (fun sel8 hi => hrd sel8 (hi ▸ hd))
  | error e =>
    rw [presentWord_of_error hd]
    exact unlessFaulted_faulted hf _

/-- The faulted engine keeps the record of its fault. -/
theorem CommandOutcome.record_of_faulted (ho : CommandOutcome w s t) (hf : s.flt = true) :
    t.cause = s.cause ∧ t.ecmd = s.ecmd := by
  cases ho with
  | ignored => exact ⟨rfl, rfl⟩
  | read => exact ⟨rfl, rfl⟩
  | faulted hn => simp [hf] at hn
  | completed hn => simp [hf] at hn

/-- Settles O15: SRESET, RD and every other word in the faulted state, and the record that all but SRESET keep. -/
theorem theFaultedStateHearsOnlyResetAndRead : Obligations.TheFaultedStateHearsOnlyResetAndRead := by
  unfold Obligations.TheFaultedStateHearsOnlyResetAndRead
  refine fun s hf => ⟨fun w hw => ?_, fun w sel8 hw => ?_, fun w => presentWord_of_faulted hf, fun w t hw h => ?_⟩
  · exact ⟨presentWord_sreset hw s, hardwareReset_atReset s⟩
  · obtain ⟨-, -, -, hwf⟩ := decode_ok_iff_fields.mp hw
    obtain ⟨v, hv⟩ := exists_selected_of_wf s hwf
    refine ⟨v, hv, ?_⟩
    rw [presentWord_of_ok hw, exec_rd_of_selected hv, if_pos hf]
    rfl
  · exact (presentWord_outcome_self hw h).record_of_faulted hf

/-! ### The fault table (60_exceptions.md R200) -/

/-- An illegal word is cause 1 (R201). -/
theorem presentWord_illegal {e : Illegal} (hf : s.flt = false) (hd : decode w = .error e) :
    presentWord w s = .next (s.recordFault .illegalCommand w) :=
  (presentWord_of_error hd s).trans (presentIllegal_next.mpr (.inr ⟨hf, rfl⟩))

/-- CRYPT without an S-box is cause 2, whatever `BLEN` is. -/
theorem exec_crypt_uninit (hf : s.flt = false) (hsb : s.sbv = false) :
    exec .crypt s = .next (s.recordFault .uninitOperand (encode .crypt)) :=
  execCrypt_next.mpr (.inr (.inl ⟨hf, hsb, rfl⟩))

/-- BWR outside the buffer memory is cause 3. -/
theorem exec_bwr_outside (hf : s.flt = false) (h : s.cfg.bufSize ≤ s.arg.toNat) (v : Byte) :
    exec (.bwr v) s = .next (s.recordFault .bufAddress (encode (.bwr v))) :=
  execBwr_next.mpr (.inr (.inl ⟨hf, h, rfl⟩))

/-- BRD outside the buffer memory is cause 3. -/
theorem exec_brd_outside (hf : s.flt = false) (h : s.cfg.bufSize ≤ s.arg.toNat) :
    exec .brd s = .next (s.recordFault .bufAddress (encode .brd)) :=
  execBrd_next.mpr (.inr (.inl ⟨hf, h, rfl⟩))

/-- SETBLEN above the buffer's size is cause 4. -/
theorem exec_setblen_too_long (hf : s.flt = false) (h : s.cfg.bufSize < s.arg.toNat) :
    exec .setblen s = .next (s.recordFault .length (encode .setblen)) :=
  execSetblen_next.mpr (.inr (.inl ⟨hf, h, rfl⟩))

/-- A command that completes with an effect that leaves `FLT` leaves the normal engine normal. -/
theorem next_normal_of_complete {u : State} (hf : s.flt = false) (hu : u.flt = s.flt) :
    ∃ t, unlessFaulted s (complete u) = .next t ∧ t.flt = false :=
  ⟨u.countCommand, unlessFaulted_normal hf _, hu.trans hf⟩

/-- RD with a legal selector never faults. -/
theorem exec_rd_next_normal (hf : s.flt = false) (hwf : (Instr.rd sel8).wf = true) :
    ∃ t, exec (.rd sel8) s = .next t ∧ t.flt = false := by
  obtain ⟨v, hv⟩ := exists_selected_of_wf s hwf
  exact ⟨(s.setDout v).countCommand, execRd_next.mpr (.inr (.inr (.inr ⟨v, hv, hf, rfl⟩))), hf⟩

/-- The eleven commands that R200 names never fault. -/
theorem exec_next_normal_of_neverFaults (hf : s.flt = false) (hwf : i.wf = true)
    (hi : i.op ∈ [.nop, .sreset, .arglo, .arghi, .rd, .zero, .saltw, .hinit, .hbyte, .oracle, .mkrec]) :
    ∃ t, exec i s = .next t ∧ t.flt = false := by
  cases i with
  | sreset => exact ⟨s.hardwareReset, rfl, rfl⟩
  | rd sel8 => exact exec_rd_next_normal hf hwf
  | zero m => exact next_normal_of_complete hf (s.zeroed_flt m)
  | nop | arglo | arghi | saltw | hinit | hbyte | oracle | mkrec => exact next_normal_of_complete hf rfl
  | setblen | bwr | brd | kdf | sbinit | crypt => simp [Instr.op] at hi

/-- Settles O16: one lemma per condition of the table, and the commands outside it. -/
theorem eachFaultConditionRaisesItsCause : Obligations.EachFaultConditionRaisesItsCause := by
  unfold Obligations.EachFaultConditionRaisesItsCause
  refine fun s hf => ⟨fun w e => presentWord_illegal hf, fun h => ?_, exec_sbinit_uninit hf, exec_crypt_uninit hf,
    fun h => ⟨fun v => ?_, exec_brd_outside hf h⟩, exec_setblen_too_long hf, fun hm hs => ?_,
    fun i => exec_next_normal_of_neverFaults hf⟩
  · exact exec_kdf_uninit hf (h.imp_right fun ⟨h0, h1⟩ => saltPartial_of_ne h0 h1)
  · have hw : encode (.bwr v) = 0x11000000 ||| v.setWidth 32 := encodeB_eq .bwr v
    exact hw ▸ exec_bwr_outside hf h v
  · exact exec_kdf_too_long hf hm (hs.elim saltPartial_of_absent saltPartial_of_present)

end Sys2Proof.Machine
end

section
/-! PROOFS. The family 'other', encoding (spec/30_encoding.md): commands and their words correspond (R86), how many
words are legal (R90), and words stored in bytes (20_memory.md R62). -/

namespace Sys2Proof

open Sys2Proof.Machine

variable {w : Word} {o : Op}

/-! ### Decoder and encoder (30_encoding.md R86) -/

/-- Settles O3, by the fields of an encoded word. -/
theorem decodeOfEncodeIsTheCommand : Obligations.DecodeOfEncodeIsTheCommand := by
  unfold Obligations.DecodeOfEncodeIsTheCommand
  exact fun i => decode_encode

/-- Settles O4: the decoder tests the command it makes, and a word's fields put together are the word. -/
theorem aLegalWordIsTheOneWordOfItsCommand : Obligations.ALegalWordIsTheOneWordOfItsCommand := by
  unfold Obligations.ALegalWordIsTheOneWordOfItsCommand
  intro w i h
  obtain ⟨-, -, -, hwf⟩ := decode_ok_iff_fields.mp h
  exact ⟨hwf, encode_of_decode h⟩

/-- Settles O8, by evaluating the decoder on the printed words. -/
theorem sampleWordsDecodeAsTheSpecPrintsThem : Obligations.SampleWordsDecodeAsTheSpecPrintsThem := by
  unfold Obligations.SampleWordsDecodeAsTheSpecPrintsThem
  decide

/-! ### The number of legal words (30_encoding.md R90 (f)) -/

/-- How many legal words a row has: every value of its operands, but for RD the seven selectors (R90 (c)). -/
def Op.wordCount (o : Op) : Nat := if o = .rd then 7 else 2 ^ o.format.operandBits

/-- The numbers of a row's legal words: a run that starts at its opcode in bits 31:24. -/
def Op.wordRange (o : Op) : Finset Nat :=
  Finset.Ico (o.code.toNat * 2 ^ 24) (o.code.toNat * 2 ^ 24 + o.wordCount)

theorem Op.card_wordRange (o : Op) : o.wordRange.card = o.wordCount := by
  rw [Op.wordRange, Nat.card_Ico, Nat.add_sub_cancel_left]

theorem Op.wordCount_le (o : Op) : o.wordCount ≤ 2 ^ 24 := by
  cases o <;> decide

theorem Op.code_injective : Function.Injective Op.code := fun o o' h =>
  Option.some.inj (by rw [← o.ofCode_code, h, o'.ofCode_code])

/-- The opcode, the reserved zeros and a legal operand, as one bound on the word. -/
theorem Op.mem_wordRange_iff {o : Op} {w : Word} :
    w.toNat ∈ o.wordRange ↔
      (o.code = opField w ∧ reservedZero o.format w = true) ∧ (o.instr w).wf = true := by
  rw [instr_wf_iff, ← BitVec.toNat_inj, opField_toNat, reservedZero_iff, ← highBits_eq_iff, Op.wordRange,
    Finset.mem_Ico, Op.wordCount]
  by_cases ho : o = .rd
  · subst ho
    simp only [Op.format, Format.operandBits, if_true, true_implies]
    omega
  · simp only [ho, if_false, false_implies, and_true]
    generalize o.code.toNat = c
    cases o.format <;> simp only [Format.operandBits] <;> omega

theorem decodes_iff_mem_wordRange : (∃ i, decode w = .ok i) ↔ ∃ o : Op, w.toNat ∈ o.wordRange := by
  simp only [Op.mem_wordRange_iff, ← decodesTo_op_iff]
  exact ⟨fun ⟨i, hi⟩ => ⟨i.op, i, hi, rfl⟩, fun ⟨_, i, hi, _⟩ => ⟨i, hi⟩⟩

/-- Two rows share no word. -/
theorem Op.disjoint_wordRange {o o' : Op} (h : o ≠ o') : Disjoint o.wordRange o'.wordRange := by
  have hcode : o.code.toNat ≠ o'.code.toNat := fun hc => h (Op.code_injective (BitVec.eq_of_toNat_eq hc))
  have hle := o.wordCount_le
  have hle' := o'.wordCount_le
  refine Finset.disjoint_left.mpr fun n hn hn' => ?_
  simp only [Op.wordRange, Finset.mem_Ico] at hn hn'
  omega

/-- The numbers of all legal words. -/
def legalWords : Finset Nat := Op.all.toFinset.biUnion Op.wordRange

theorem mem_legalWords {n : Nat} : n ∈ legalWords ↔ ∃ o : Op, n ∈ o.wordRange := by
  simp [legalWords, Op.mem_all]

theorem lt_of_mem_legalWords {n : Nat} (h : n ∈ legalWords) : n < 2 ^ 32 := by
  obtain ⟨o, ho⟩ := mem_legalWords.mp h
  have hle := o.wordCount_le
  have hcode := o.code.isLt
  simp only [Op.wordRange, Finset.mem_Ico] at ho
  omega

theorem card_legalWords : legalWords.card = 133905 := by
  rw [legalWords, Finset.card_biUnion fun o _ o' _ h => Op.disjoint_wordRange h]
  simp only [Op.card_wordRange]
  rfl

theorem image_toNat_decodes :
    BitVec.toNat '' { w : Word | ∃ i, decode w = .ok i } = (legalWords : Set Nat) := by
  ext n
  rw [Finset.mem_coe]
  constructor
  · rintro ⟨w, hw, rfl⟩
    exact mem_legalWords.mpr (decodes_iff_mem_wordRange.mp hw)
  · intro hn
    have hw : (BitVec.ofNat 32 n).toNat = n := Nat.mod_eq_of_lt (lt_of_mem_legalWords hn)
    exact ⟨BitVec.ofNat 32 n, decodes_iff_mem_wordRange.mpr (hw.symm ▸ mem_legalWords.mp hn), hw⟩

/-- Settles O7: a word is its number, the rows' runs of numbers are disjoint, and their lengths add up. -/
theorem thereAreExactly133905LegalWords : Obligations.ThereAreExactly133905LegalWords := by
  unfold Obligations.ThereAreExactly133905LegalWords
  calc Nat.card { w : Word // ∃ i, decode w = .ok i }
      = Nat.card (BitVec.toNat '' { w : Word | ∃ i, decode w = .ok i }) :=
        (Nat.card_image_of_injective (fun _ _ => BitVec.eq_of_toNat_eq) _).symm
    _ = (legalWords : Set Nat).ncard := by rw [image_toNat_decodes, Nat.card_coe_set_eq]
    _ = 133905 := by rw [Set.ncard_coe_finset, card_legalWords]

/-! ### Words stored in bytes (20_memory.md R62) -/

theorem wordOfBytes_fields (w : Word) :
    wordOfBytes (w.extractLsb' 0 8) (w.extractLsb' 8 8) (w.extractLsb' 16 8) (w.extractLsb' 24 8) = w := by
  apply BitVec.eq_of_toNat_eq
  rw [wordOfBytes, append_four_bytes_toNat, toNat_field, toNat_field, toNat_field, toNat_field]
  omega

/-- Settles O9: the four bytes put together again are the word. -/
theorem storedBytesDecodeAsTheirWord : Obligations.StoredBytesDecodeAsTheirWord := by
  unfold Obligations.StoredBytesDecodeAsTheirWord
  intro w rest
  simp only [bytesOfWord, List.cons_append, List.nil_append, decodeBytes, wordOfBytes_fields]
  cases decode w <;> rfl

end Sys2Proof
end

section
/-! PROOFS. The family 'other', commands and steps: every command's answer in one form, read in both directions
(40_control_and_data.md R106), and from it what a command leaves unchanged (10_state.md R20), what it does not read
(R24, 60_exceptions.md R210), and the step (R24, R28). -/

namespace Sys2Proof.Machine

variable {s s' t : State} {w : Word} {i : Instr}

/-! ### The answer of a command (40_control_and_data.md R106) -/

/-- What a command that completes does to the state, its count aside. -/
def effect (s : State) : Instr → State
  | .nop => s
  | .sreset => s.hardwareReset
  | .arglo imm16 => s.setArg (lowOperand imm16)
  | .arghi imm16 => s.setArg (highOperand imm16 s.arg)
  | .rd sel8 => s.setDout ((s.selected sel8).getD s.dout)
  | .zero mask8 => s.zeroed mask8
  | .setblen => s.setBlen s.arg
  | .bwr imm8 => (s.setBuf (s.buf.write s.arg.toNat imm8)).stepArg
  | .brd => (s.setDout ((s.buf.read s.arg.toNat).setWidth 32)).stepArg
  | .saltw idx3 imm8 => s.setSalt (s.salt.set idx3.toNat imm8 idx3.isLt) (s.saltv ||| 1#8 <<< idx3.toNat)
  | .hinit => s.setH hashInit
  | .hbyte imm8 => s.setH (hstep s.h imm8)
  | .oracle => s.setDec (oracleOf s.cfg.secret s.arg)
  | .mkrec => s.setMk (masterKey s.cfg) true
  | .kdf => s.setDk (kdfn s.mkey.toList s.saltOperand s.arg.toNat) s.arg true
  | .sbinit => s.setSbox (sboxInit s.dk (sboxDecision s.cfg)) true
  | .crypt =>
    s.setBuf (s.buf.writeFrom 0 (cryptBuffer (s.buf.readPrefix s.blen.toNat) s.sbox0 s.cfg.secret))

/-- The effect of a command other than SRESET on the faulted engine: RD still loads `DOUT` (R206). -/
def faultedEffect (s : State) : Instr → State
  | .rd sel8 => s.setDout ((s.selected sel8).getD s.dout)
  | _ => s

/-- The fault a command takes in the normal state (60_exceptions.md R200, R207). -/
def faultCause (s : State) : Instr → Option Cause
  | .rd sel8 => if (s.selected sel8).isSome then none else some .illegalCommand
  | .setblen => if s.cfg.bufSize < s.arg.toNat then some .length else none
  | .bwr _ | .brd => if s.argInBuf then none else some .bufAddress
  | .kdf =>
    if !s.mkv then some .uninitOperand
    else if s.saltPartial then some .uninitOperand
    else if s.cfg.dkMax < s.arg.toNat then some .length
    else none
  | .sbinit => if !s.dkv then some .uninitOperand else none
  | .crypt => if !s.sbv then some .uninitOperand else none
  | _ => none

/-- The one command that stops the model, past its tests for a fault (log entry 4). -/
def stops (s : State) : Instr → Bool
  | .crypt => decide (s.cfg.bufSize < s.blen.toNat)
  | _ => false

/-- The normal engine's answer: the first fault of its rule, or the model's stop, or the effect, counted. -/
def normalAnswer (s : State) (i : Instr) : Result :=
  match faultCause s i with
  | some c => raiseFault c (encode i) s
  | none => if stops s i then .fault .bufAddressAbsent else complete (effect s i)

/-- A normal engine's answer, case by case along the tests of the command's rule. -/
theorem exec_normal (hi : i ≠ .sreset) (hf : s.flt = false) : exec i s = normalAnswer s i := by
  have normal := unlessFaulted_normal hf
  cases i with
  | sreset => exact absurd rfl hi
  | rd sel8 =>
    simp only [exec, execRd, presentIllegal, hf, normal, normalAnswer, faultCause, effect]
    cases s.selected sel8 <;> rfl
  | setblen | bwr | brd | kdf | sbinit | crypt =>
    refine (normal _).trans ?_
    simp only [normalAnswer, faultCause, stops, decide_eq_true_eq, Bool.false_eq_true, if_false]
    split_ifs <;> rfl
  | _ => exact normal _

theorem exec_faulted (hi : i ≠ .sreset) (hf : s.flt = true) : exec i s = .next (faultedEffect s i) := by
  cases i with
  | sreset => exact absurd rfl hi
  | rd sel8 =>
    simp only [exec, execRd, presentIllegal, unlessFaulted_faulted hf, hf, faultedEffect]
    cases s.selected sel8 <;> rfl
  | _ => exact unlessFaulted_faulted hf _

/-- The four ways a command answers a next state, each with what decides that it is that one. -/
inductive Answers (i : Instr) (s : State) : State → Prop where
  /-- SRESET resets in both states (R101). -/
  | reset (hi : i = .sreset) : Answers i s s.hardwareReset
  /-- The faulted engine hears at most RD (R206). -/
  | faulted (hi : i ≠ .sreset) (hf : s.flt = true) : Answers i s (faultedEffect s i)
  /-- The normal engine takes a fault (R204). -/
  | faults (hi : i ≠ .sreset) (hf : s.flt = false) {c : Cause} (hc : faultCause s i = some c) :
      Answers i s (s.recordFault c (encode i))
  /-- The normal engine has the effect and counts it (R23). -/
  | completes (hi : i ≠ .sreset) (hf : s.flt = false) (hc : faultCause s i = none) (hs : stops s i = false) :
      Answers i s (effect s i).countCommand

theorem exec_of_completes (hi : i ≠ .sreset) (hf : s.flt = false) (hc : faultCause s i = none)
    (hs : stops s i = false) : exec i s = .next (effect s i).countCommand := by
  rw [exec_normal hi hf, normalAnswer, hc]
  simp only [hs]
  rfl

theorem exec_next_iff : exec i s = .next t ↔ Answers i s t := by
  constructor
  · intro h
    by_cases hi : i = .sreset
    · subst hi
      obtain rfl := execSreset_next.mp h
      exact .reset rfl
    cases hf : s.flt with
    | true =>
      rw [exec_faulted hi hf, next_eq_next] at h
      exact h ▸ .faulted hi hf
    | false =>
      rw [exec_normal hi hf, normalAnswer] at h
      cases hc : faultCause s i with
      | some c =>
        rw [hc] at h
        obtain rfl := raiseFault_next.mp h
        exact .faults hi hf hc
      | none =>
        cases hs : stops s i with
        | true => simp [hc, hs] at h
        | false =>
          simp only [hc, hs] at h
          obtain rfl := complete_next.mp h
          exact .completes hi hf hc hs
  · rintro (rfl | ⟨hi, hf⟩ | ⟨hi, hf, hc⟩ | ⟨hi, hf, hc, hs⟩)
    · rfl
    · exact exec_faulted hi hf
    · rw [exec_normal hi hf, normalAnswer, hc]
      rfl
    · exact exec_of_completes hi hf hc hs

/-! ### What a command leaves unchanged (10_state.md R20) -/

/-- A command outside a list of writers that holds SRESET keeps what its counted effect, RD's load and a fault's record
keep. -/
theorem exec_keeps {α : Type} {f : State → α} {writers : List Op} (h : exec i s = .next t) (hi : i.op ∉ writers)
    (heffect : f (effect s i).countCommand = f s) (hreset : .sreset ∈ writers := by decide)
    (hread : ∀ sel8 v, i = .rd sel8 → f (s.setDout v) = f s := by intros; rfl)
    (hfault : ∀ c w, f (s.recordFault c w) = f s := by intros; rfl) : f t = f s := by
  cases exec_next_iff.mp h with
  | reset hr => exact absurd (hr ▸ hreset) hi
  | faulted =>
    cases i with
    | rd sel8 => exact hread sel8 _ rfl
    | _ => rfl
  | faults => exact hfault _ _
  | completes => exact heffect

theorem exec_keeps_arg (h : exec i s = .next t) (hi : i.op ∉ [.arglo, .arghi, .bwr, .brd, .zero, .sreset]) :
    t.arg = s.arg := by
  refine exec_keeps h hi ?_
  cases i with
  | arglo | arghi | bwr | brd | zero | sreset => simp [Instr.op] at hi
  | _ => rfl

theorem exec_keeps_dout (h : exec i s = .next t) (hi : i.op ∉ [.rd, .brd, .zero, .sreset]) : t.dout = s.dout := by
  refine exec_keeps h hi ?_ (hread := fun sel8 _ hrd => absurd (hrd ▸ List.mem_cons_self) hi)
  cases i with
  | rd | brd | zero | sreset => simp [Instr.op] at hi
  | _ => rfl

theorem exec_keeps_h (h : exec i s = .next t) (hi : i.op ∉ [.hinit, .hbyte, .zero, .sreset]) : t.h = s.h := by
  refine exec_keeps h hi ?_
  cases i with
  | hinit | hbyte | zero | sreset => simp [Instr.op] at hi
  | _ => rfl

theorem exec_keeps_dec (h : exec i s = .next t) (hi : i.op ∉ [.oracle, .zero, .sreset]) : t.dec = s.dec := by
  refine exec_keeps h hi ?_
  cases i with
  | oracle | zero | sreset => simp [Instr.op] at hi
  | _ => rfl

theorem exec_keeps_mk (h : exec i s = .next t) (hi : i.op ∉ [.mkrec, .zero, .sreset]) :
    (t.mkv, t.mkey) = (s.mkv, s.mkey) := by
  refine exec_keeps (f := fun u => (u.mkv, u.mkey)) h hi ?_
  cases i with
  | mkrec | zero | sreset => simp [Instr.op] at hi
  | _ => rfl

theorem exec_keeps_salt (h : exec i s = .next t) (hi : i.op ∉ [.saltw, .zero, .sreset]) :
    (t.saltv, t.salt) = (s.saltv, s.salt) := by
  refine exec_keeps (f := fun u => (u.saltv, u.salt)) h hi ?_
  cases i with
  | saltw | zero | sreset => simp [Instr.op] at hi
  | _ => rfl

theorem exec_keeps_dk (h : exec i s = .next t) (hi : i.op ∉ [.kdf, .zero, .sreset]) :
    (t.dkv, t.dklen, t.dk) = (s.dkv, s.dklen, s.dk) := by
  refine exec_keeps (f := fun u => (u.dkv, u.dklen, u.dk)) h hi ?_
  cases i with
  | kdf | zero | sreset => simp [Instr.op] at hi
  | _ => rfl

theorem exec_keeps_sbox (h : exec i s = .next t) (hi : i.op ∉ [.sbinit, .zero, .sreset]) :
    (t.sbv, t.sbox0) = (s.sbv, s.sbox0) := by
  refine exec_keeps (f := fun u => (u.sbv, u.sbox0)) h hi ?_
  cases i with
  | sbinit | zero | sreset => simp [Instr.op] at hi
  | _ => rfl

theorem exec_keeps_blen (h : exec i s = .next t) (hi : i.op ∉ [.setblen, .zero, .sreset]) : t.blen = s.blen := by
  refine exec_keeps h hi ?_
  cases i with
  | setblen | zero | sreset => simp [Instr.op] at hi
  | _ => rfl

theorem exec_keeps_buf (h : exec i s = .next t) (hi : i.op ∉ [.bwr, .crypt, .zero, .sreset]) : t.buf = s.buf := by
  refine exec_keeps h hi ?_
  cases i with
  | bwr | crypt | zero | sreset => simp [Instr.op] at hi
  | _ => rfl

/-- A command takes its fault in the normal state, and leaves the record alone where it takes none. -/
theorem CommandOutcome.record_of_noFault (ho : CommandOutcome w s t) (h : t.flt = false ∨ s.flt = true) :
    t.flt = s.flt ∧ t.cause = s.cause ∧ t.ecmd = s.ecmd := by
  cases ho with
  | ignored => exact ⟨rfl, rfl, rfl⟩
  | read => exact ⟨rfl, rfl, rfl⟩
  | faulted hf => simp [hf] at h
  | completed _ hu => exact ⟨hu.flt, hu.cause, hu.ecmd⟩

/-- The count moves only where no fault is recorded, before or after. -/
theorem CommandOutcome.cidx_of_fault (ho : CommandOutcome w s t) (h : s.flt = true ∨ t.flt = true) :
    t.cidx = s.cidx := by
  cases hf : s.flt with
  | true => exact ho.cidx_of_faulted hf
  | false => simpa [hf] using (ho.cidx_of_normal hf).trans (if_pos (h.resolve_left (by simp [hf])))

/-- Configuration, command list and position are the host's. -/
theorem CommandOutcome.host (ho : CommandOutcome w s t) : t.cfg = s.cfg ∧ t.prog = s.prog ∧ t.k = s.k := by
  cases ho with
  | ignored => exact ⟨rfl, rfl, rfl⟩
  | read => exact ⟨rfl, rfl, rfl⟩
  | faulted => exact ⟨rfl, rfl, rfl⟩
  | completed _ hu => exact ⟨hu.cfg, hu.prog, hu.k⟩

theorem exec_host (h : exec i s = .next t) : t.cfg = s.cfg ∧ t.prog = s.prog ∧ t.k = s.k := by
  by_cases hi : i = .sreset
  · subst hi
    obtain rfl := execSreset_next.mp h
    exact ⟨rfl, rfl, rfl⟩
  · exact (exec_outcome hi h).host

theorem exec_outcome_of_op (hi : i.op ≠ .sreset) (h : exec i s = .next t) : CommandOutcome (encode i) s t :=
  exec_outcome (fun hr => hi (hr ▸ rfl)) h

/-- Settles O22, row by row of the table. -/
theorem eachRegisterIsWrittenOnlyByItsWriters : Obligations.EachRegisterIsWrittenOnlyByItsWriters := by
  unfold Obligations.EachRegisterIsWrittenOnlyByItsWriters
  refine fun i s t h => ⟨exec_keeps_arg h, exec_keeps_dout h, fun hi => (exec_outcome_of_op hi h).cidx_of_fault,
    exec_keeps_h h, exec_keeps_dec h, fun hi => ?_, fun hi => ?_, fun hi => ?_, fun hi => ?_, exec_keeps_blen h,
    exec_keeps_buf h, fun hi => (exec_outcome_of_op hi h).record_of_noFault, exec_host h⟩
  · simpa using exec_keeps_mk h hi
  · simpa using exec_keeps_salt h hi
  · simpa using exec_keeps_dk h hi
  · simpa using exec_keeps_sbox h hi

/-- Settles O23: the commands that write `BUF` at all, each by where it writes. -/
theorem eachBufferByteIsWrittenOnlyByItsWriters : Obligations.EachBufferByteIsWrittenOnlyByItsWriters := by
  unfold Obligations.EachBufferByteIsWrittenOnlyByItsWriters
  refine fun i s t h a => ⟨fun hi => ?_, fun hi ha => ?_, fun hi ha => ?_, fun mask8 hi hm => ?_⟩
  · rw [State.bufByte, exec_keeps_buf h hi]
    rfl
  · cases i with
    | bwr imm8 =>
      have hother := Memory.read_write_other (m := s.buf) imm8 ha.symm
      exact kept_of_oneFault (f := fun u => u.bufByte a) (execBwr_next.mp h) rfl hother
    | _ => cases hi
  · cases i with
    | crypt =>
      obtain ⟨-, rfl⟩ | ⟨-, -, rfl⟩ | ⟨-, -, -, rfl⟩ := execCrypt_next.mp h
      · rfl
      · rfl
      · exact Memory.read_writeFrom_other (.inr (by simpa using ha))
    | _ => cases hi
  · subst hi
    refine kept_of_neverFaults (f := fun u => u.bufByte a) (execZero_next.mp h) ?_
    exact (zeroed_bufByte s mask8 a).trans (if_neg (Bool.eq_false_iff.mp hm))

/-! ### The host's list and position (10_state.md R24) -/

/-- The same engine beside another list and position. -/
def withHost (s : State) (prog : List Word) (k : Nat) : State := { s with prog := prog, k := k }

theorem withHost_zeroed (s : State) (prog : List Word) (k : Nat) (m : Byte) :
    (withHost s prog k).zeroed m = withHost (s.zeroed m) prog k := by
  apply State.ext <;> simp [withHost]

theorem effect_withHost (s : State) (prog : List Word) (k : Nat) (i : Instr) :
    effect (withHost s prog k) i = withHost (effect s i) prog k := by
  cases i with
  | zero m => exact withHost_zeroed s prog k m
  | _ => rfl

theorem faultedEffect_withHost (s : State) (prog : List Word) (k : Nat) (i : Instr) :
    faultedEffect (withHost s prog k) i = withHost (faultedEffect s i) prog k := by
  cases i <;> rfl

theorem faultCause_withHost (s : State) (prog : List Word) (k : Nat) (i : Instr) :
    faultCause (withHost s prog k) i = faultCause s i := by
  cases i <;> rfl

theorem stops_withHost (s : State) (prog : List Word) (k : Nat) (i : Instr) :
    stops (withHost s prog k) i = stops s i := by
  cases i <;> rfl

/-- A command answers alike beside any list and position, which it keeps. -/
theorem exec_withHost (h : exec i s = .next t) (prog : List Word) (k : Nat) :
    exec i (withHost s prog k) = .next (withHost t prog k) := by
  rw [exec_next_iff] at h ⊢
  cases h with
  | reset hi => exact .reset hi
  | faulted hi hf => exact faultedEffect_withHost s prog k i ▸ .faulted hi hf
  | faults hi hf hc => exact .faults (s := withHost s prog k) hi hf ((faultCause_withHost s prog k i).trans hc)
  | completes hi hf hc hs =>
    have hu : withHost (effect s i).countCommand prog k = (effect (withHost s prog k) i).countCommand :=
      congrArg State.countCommand (effect_withHost s prog k i).symm
    rw [hu]
    exact .completes hi hf ((faultCause_withHost s prog k i).trans hc) ((stops_withHost s prog k i).trans hs)

/-! ### The step (10_state.md R24) -/

theorem step_of_word (h : s.nextWord = some w) : step s = presentWord w s.advance := by
  simp only [step, stepWord, h]

theorem step_of_noWord (h : s.nextWord = none) : step s = .next s := by
  simp only [step, stepWord, h]

/-- Settles O10: the next word, if any, is presented with the position moved on. -/
theorem aStepExecutesTheDecodedWord : Obligations.AStepExecutesTheDecodedWord := by
  unfold Obligations.AStepExecutesTheDecodedWord
  refine fun s => ⟨fun w i hw hd => ?_, fun w e hw hd hf => ?_, fun w e hw hd hf => ?_, step_of_noWord⟩
  · rw [step_of_word hw, presentWord_of_ok hd]
    rfl
  · rw [step_of_word hw, presentWord_illegal (s := s.advance) hf hd]
    rfl
  · rw [step_of_word hw, presentWord_of_error hd]
    exact unlessFaulted_faulted (s := s.advance) hf _

theorem presentWord_host (h : presentWord w s = .next t) : t.cfg = s.cfg ∧ t.prog = s.prog ∧ t.k = s.k := by
  cases hd : decode w with
  | ok i =>
    rw [presentWord_of_ok hd] at h
    exact exec_host h
  | error e =>
    rw [presentWord_of_error hd] at h
    exact (presentIllegal_outcome h).host

/-- Settles O11: only the step itself moves the position, and no command's answer depends on it. -/
theorem commandsNeitherReadNorWriteThePosition : Obligations.CommandsNeitherReadNorWriteThePosition := by
  unfold Obligations.CommandsNeitherReadNorWriteThePosition
  refine ⟨fun s t hk h => ?_, fun i s t prog k h => ?_⟩
  · rw [step_of_word (List.getElem?_eq_getElem hk)] at h
    obtain ⟨-, hprog, hpos⟩ := presentWord_host h
    exact ⟨hpos, hprog⟩
  · obtain ⟨-, hprog, hpos⟩ := exec_host h
    exact ⟨hpos, hprog, exec_withHost h prog k⟩

/-- Settles O17: any word but SRESET's leaves the faulted engine its fault. -/
theorem onlySresetClearsAFaultInAStep : Obligations.OnlySresetClearsAFaultInAStep := by
  unfold Obligations.OnlySresetClearsAFaultInAStep
  intro s t hf hw h
  cases hn : s.nextWord with
  | none =>
    obtain rfl := next_eq_next.mp ((step_of_noWord hn).symm.trans h)
    exact ⟨hf, rfl, rfl⟩
  | some w =>
    rw [step_of_word hn] at h
    have hreset : decode w ≠ .ok .sreset := fun hd => hw (hn.trans (congrArg some (encode_of_decode hd).symm))
    have ho := presentWord_outcome_self hreset h
    exact ⟨ho.flt_of_faulted hf, ho.record_of_faulted hf⟩

theorem getElem?_placeAt (l : List Word) (k : Nat) (w : Word) : (placeAt l k w)[k]? = some w := by
  fun_induction placeAt l k w with
  | case1 => rfl
  | case2 k w ih => exact ih
  | case3 => rfl
  | case4 x rest k w ih => exact ih

theorem tableWord_toNat (w : Word) : tableWord 32 w.toNat = w := by
  rw [tableWord, Nat.mod_eq_of_lt w.isLt, BitVec.ofNat_toNat, BitVec.setWidth_eq]

/-- Settles O12: the list holds the placed word at the position. -/
theorem aPlacedWordIsPresentedNext : Obligations.APlacedWordIsPresentedNext := by
  unfold Obligations.APlacedWordIsPresentedNext
  intro s w
  rw [State.withFetchWord, tableWord_toNat]
  exact ⟨getElem?_placeAt s.prog s.k w, _, rfl⟩

/-! ### The two halves of an operand (30_encoding.md R88) -/

theorem exec_arglo_normal (hf : s.flt = false) (v : Half) :
    exec (.arglo v) s = .next (s.setArg (lowOperand v)).countCommand :=
  execArglo_next.mpr (.inr ⟨hf, rfl⟩)

theorem exec_arghi_normal (hf : s.flt = false) (v : Half) :
    exec (.arghi v) s = .next (s.setArg (highOperand v s.arg)).countCommand :=
  execArghi_next.mpr (.inr ⟨hf, rfl⟩)

theorem lowOperand_half_toNat (v : Word) : (lowOperand (v.extractLsb' 0 16)).toNat = v.toNat % 2 ^ 16 := by
  rw [lowOperand_toNat, toNat_field, Nat.pow_zero, Nat.div_one]

/-- The high half over the low operand is the whole. -/
theorem highOperand_lowOperand (v : Word) :
    highOperand (v.extractLsb' 16 16) (lowOperand (v.extractLsb' 0 16)) = v := by
  apply BitVec.eq_of_toNat_eq
  rw [highOperand_toNat, lowOperand_half_toNat, toNat_field]
  omega

/-- Settles O28: each order by the last write of each half. -/
theorem argloThenArghiAssembleAnOperand : Obligations.ArgloThenArghiAssembleAnOperand := by
  unfold Obligations.ArgloThenArghiAssembleAnOperand
  refine fun v s t u hf => ⟨fun ht hu => ?_, fun ht hu => ?_⟩
  · obtain rfl := next_eq_next.mp ((exec_arglo_normal hf _).symm.trans ht)
    obtain rfl := next_eq_next.mp ((exec_arghi_normal (by exact hf) _).symm.trans hu)
    have hcidx : s.cidx + 1#32 + 1#32 = s.cidx + 2#32 := BitVec.add_assoc s.cidx 1 1
    simp [State.countCommand, State.setArg, highOperand_lowOperand, hcidx]
  · obtain rfl := next_eq_next.mp ((exec_arghi_normal hf _).symm.trans ht)
    obtain rfl := next_eq_next.mp ((exec_arglo_normal (by exact hf) _).symm.trans hu)
    exact lowOperand_half_toNat v

/-! ### Key material (60_exceptions.md R210) -/

section secrets

variable (h : s.SameButSecrets s')
include h

/-- No view of the state that the host can have RD select shows a key store or a constant. -/
theorem State.SameButSecrets.selected_eq (sel8 : Byte) : s.selected sel8 = s'.selected sel8 := by
  simp only [State.selected, State.status, State.saltPresent, h.mkv, h.saltv, h.dkv, h.sbv, h.dec, h.flt, h.cause,
    h.h, h.arg, h.blen, h.dklen, h.cidx, h.ecmd]

theorem State.SameButSecrets.hardwareReset : s.hardwareReset.SameButSecrets s'.hardwareReset where
  bufSize := h.bufSize
  dkMax := h.dkMax
  prog := h.prog
  k := h.k
  arg := rfl
  dout := rfl
  cidx := rfl
  h := rfl
  dec := rfl
  mkv := rfl
  saltv := rfl
  dkv := rfl
  sbv := rfl
  flt := rfl
  cause := rfl
  ecmd := rfl
  blen := rfl
  dklen := rfl
  buf := rfl

theorem State.SameButSecrets.setArg {v v' : Word} (hv : v = v') : (s.setArg v).SameButSecrets (s'.setArg v') :=
  { h with arg := hv }

theorem State.SameButSecrets.setDout {v v' : Word} (hv : v = v') : (s.setDout v).SameButSecrets (s'.setDout v') :=
  { h with dout := hv }

theorem State.SameButSecrets.setH {v v' : Word} (hv : v = v') : (s.setH v).SameButSecrets (s'.setH v') :=
  { h with h := hv }

theorem State.SameButSecrets.setDec (v : Bool) : (s.setDec v).SameButSecrets (s'.setDec v) :=
  { h with dec := rfl }

theorem State.SameButSecrets.setBlen {v v' : Word} (hv : v = v') : (s.setBlen v).SameButSecrets (s'.setBlen v') :=
  { h with blen := hv }

theorem State.SameButSecrets.setBuf {m m' : Memory} (hm : m = m') : (s.setBuf m).SameButSecrets (s'.setBuf m') :=
  { h with buf := hm }

theorem State.SameButSecrets.setMk (b b' : Vector Byte 16) (v : Bool) :
    (s.setMk b v).SameButSecrets (s'.setMk b' v) :=
  { h with mkv := rfl }

theorem State.SameButSecrets.setSalt (b b' : Vector Byte 8) {v v' : BitVec 8} (hv : v = v') :
    (s.setSalt b v).SameButSecrets (s'.setSalt b' v') :=
  { h with saltv := hv }

theorem State.SameButSecrets.setDk (b b' : List Byte) {n n' : Word} (hn : n = n') (v : Bool) :
    (s.setDk b n v).SameButSecrets (s'.setDk b' n' v) :=
  { h with dklen := hn, dkv := rfl }

theorem State.SameButSecrets.setSbox (b b' : Table) (v : Bool) :
    (s.setSbox b v).SameButSecrets (s'.setSbox b' v) :=
  { h with sbv := rfl }

theorem State.SameButSecrets.stepArg : s.stepArg.SameButSecrets s'.stepArg :=
  h.setArg (congrArg (· + 1) h.arg)

theorem State.SameButSecrets.recordFault (c : Cause) (w : Word) :
    (s.recordFault c w).SameButSecrets (s'.recordFault c w) :=
  { h with flt := rfl, cause := rfl, ecmd := rfl }

theorem State.SameButSecrets.countCommand : s.countCommand.SameButSecrets s'.countCommand :=
  { h with cidx := congrArg (· + 1) h.cidx }

theorem State.SameButSecrets.onBit {m : Byte} {n : Nat} {f : State → State}
    (hf : ∀ {u u' : State}, u.SameButSecrets u' → (f u).SameButSecrets (f u')) :
    (s.onBit m n f).SameButSecrets (s'.onBit m n f) := by
  unfold State.onBit
  split
  · exact hf h
  · exact h

theorem State.SameButSecrets.zeroed (m : Byte) : (s.zeroed m).SameButSecrets (s'.zeroed m) := by
  unfold State.zeroed
  refine .onBit (.onBit (.onBit (.onBit (.onBit (.onBit (.onBit (.onBit h ?_) ?_) ?_) ?_) ?_) ?_) ?_) ?_
  · exact fun h => h.setMk _ _ _
  · exact fun h => h.setSalt _ _ rfl
  · exact fun h => h.setDk _ _ rfl _
  · exact fun h => h.setSbox _ _ _
  · exact fun h => h.setH rfl
  · exact fun h => h.setDec _
  · exact fun h => (h.setBuf rfl).setBlen rfl
  · exact fun h => (h.setArg rfl).setDout rfl

theorem State.SameButSecrets.faultedEffect (i : Instr) :
    (faultedEffect s i).SameButSecrets (faultedEffect s' i) := by
  cases i with
  | rd sel8 => exact h.setDout (by rw [h.selected_eq, h.dout])
  | _ => exact h

theorem State.SameButSecrets.argInBuf_eq : s.argInBuf = s'.argInBuf := by
  rw [State.argInBuf, State.argInBuf, h.bufSize, h.arg]

theorem State.SameButSecrets.saltPartial_eq : s.saltPartial = s'.saltPartial := by
  rw [State.saltPartial, State.saltPartial, State.saltPresent, State.saltPresent, State.saltAbsent, State.saltAbsent,
    h.saltv]

theorem State.SameButSecrets.faultCause_eq (i : Instr) : faultCause s i = faultCause s' i := by
  cases i with
  | rd sel8 => simp only [faultCause, h.selected_eq]
  | setblen => simp only [faultCause, h.bufSize, h.arg]
  | bwr | brd => simp only [faultCause, h.argInBuf_eq]
  | kdf => simp only [faultCause, h.saltPartial_eq, h.mkv, h.dkMax, h.arg]
  | sbinit => simp only [faultCause, h.dkv]
  | crypt => simp only [faultCause, h.sbv]
  | _ => rfl

theorem State.SameButSecrets.stops_eq (i : Instr) : stops s i = stops s' i := by
  cases i with
  | crypt => simp only [stops, h.bufSize, h.blen]
  | _ => rfl

/-- Every effect but ORACLE's and CRYPT's writes from visible state alone, or into a key store. -/
theorem State.SameButSecrets.effect (ho : i.op ≠ .oracle) (hc : i.op ≠ .crypt) :
    (effect s i).SameButSecrets (effect s' i) := by
  cases i with
  | nop => exact h
  | sreset => exact h.hardwareReset
  | arglo v => exact h.setArg rfl
  | arghi v => exact h.setArg (congrArg (highOperand v) h.arg)
  | rd sel8 => exact h.setDout (by rw [h.selected_eq, h.dout])
  | zero m => exact h.zeroed m
  | setblen => exact h.setBlen h.arg
  | bwr v => exact (h.setBuf (by rw [h.buf, h.arg])).stepArg
  | brd => exact (h.setDout (by rw [h.buf, h.arg])).stepArg
  | saltw n v => exact h.setSalt _ _ (congrArg (· ||| 1#8 <<< n.toNat) h.saltv)
  | hinit => exact h.setH rfl
  | hbyte v => exact h.setH (congrArg (hstep · v) h.h)
  | mkrec => exact h.setMk _ _ _
  | kdf => exact h.setDk _ _ h.arg _
  | sbinit => exact h.setSbox _ _ _
  | oracle => exact absurd rfl ho
  | crypt => exact absurd rfl hc

/-- States alike but for secrets are alike too when `DEC` or `BUF` is left out of the comparison. -/
theorem State.SameButSecrets.withoutChannels :
    (i.op ≠ .oracle → i.op ≠ .crypt → s.SameButSecrets s') ∧
      (i.op = .oracle → { s with dec := s'.dec }.SameButSecrets s') ∧
      (i.op = .crypt → { s with buf := s'.buf }.SameButSecrets s') :=
  ⟨fun _ _ => h, fun _ => { h with dec := rfl }, fun _ => { h with buf := rfl }⟩

end secrets

/-- Settles O24: each way of answering depends on visible state, and ORACLE and CRYPT complete into `DEC` and `BUF`. -/
theorem keyMaterialReachesOnlyDecAndTheCryptedBuffer :
    Obligations.KeyMaterialReachesOnlyDecAndTheCryptedBuffer := by
  unfold Obligations.KeyMaterialReachesOnlyDecAndTheCryptedBuffer
  intro i s s' h t ht
  cases exec_next_iff.mp ht with
  | reset hi => exact ⟨_, exec_next_iff.mpr (.reset hi), h.hardwareReset.withoutChannels⟩
  | faulted hi hf =>
    exact ⟨_, exec_next_iff.mpr (.faulted hi (h.flt ▸ hf)), (h.faultedEffect i).withoutChannels⟩
  | faults hi hf hc =>
    exact ⟨_, exec_next_iff.mpr (.faults hi (h.flt ▸ hf) (h.faultCause_eq i ▸ hc)),
      (h.recordFault _ _).withoutChannels⟩
  | completes hi hf hc hs =>
    refine ⟨_, exec_of_completes hi (h.flt ▸ hf) (h.faultCause_eq i ▸ hc) (h.stops_eq i ▸ hs),
      fun ho hc => (h.effect ho hc).countCommand, fun ho => ?_, fun hc => ?_⟩
    · cases i with
      | oracle => exact { h.countCommand with dec := rfl }
      | _ => cases ho
    · cases i with
      | crypt => exact { h.countCommand with buf := rfl }
      | _ => cases hc

end Sys2Proof.Machine
end

section
/-! PROOFS. The family 'other', the invariant of 10_state.md R42: one lemma per state operation, then one per way a
command answers; and that no state of the invariant is one the model stops in (log entry 4). -/

namespace Sys2Proof.Machine

variable {s t : State} {w : Word} {i : Instr}

/-! ### The invariant at reset (10_state.md R44) -/

theorem resetWith_inv (cfg : Config) (prog : List Word) (k : Nat) : (State.resetWith cfg prog k).Inv where
  blen_le := Nat.zero_le _
  dklen_le := Nat.zero_le _
  dklen_of_invalid _ := rfl
  dk_length := rfl
  sbox_permutation := nofun
  mkey_of_invalid _ t := by simp
  sbox_of_invalid _ x := by simp
  salt_of_invalid t _ := by simp
  flt_iff := iff_of_true rfl rfl
  ecmd_of_normal _ := rfl
  mkey_of_valid := nofun
  cause_le := Nat.zero_le _
  buf_wf := ⟨List.Pairwise.nil, nofun⟩
  buf_below := nofun

/-- Settles O18: every reset is a `resetWith`. -/
theorem theInvariantHoldsAtReset : Obligations.TheInvariantHoldsAtReset := by
  unfold Obligations.TheInvariantHoldsAtReset
  exact ⟨resetWith_inv _ _ _, resetWith_inv⟩

/-! ### What each state operation needs to keep the invariant (10_state.md R42) -/

theorem Cause.code_ne_zero (c : Cause) : c.code ≠ 0 := by
  cases c <;> decide

theorem Cause.code_toNat_le (c : Cause) : c.code.toNat ≤ 4 := by
  cases c <;> decide

section operations

variable (h : s.Inv)
include h

theorem State.Inv.advance : s.advance.Inv := { h with }

theorem State.Inv.countCommand : s.countCommand.Inv := { h with }

theorem State.Inv.setArg (v : Word) : (s.setArg v).Inv := { h with }

theorem State.Inv.setDout (v : Word) : (s.setDout v).Inv := { h with }

theorem State.Inv.setH (v : Word) : (s.setH v).Inv := { h with }

theorem State.Inv.setDec (v : Bool) : (s.setDec v).Inv := { h with }

theorem State.Inv.setBlen {v : Word} (hv : v.toNat ≤ s.cfg.bufSize) : (s.setBlen v).Inv :=
  { h with blen_le := hv }

theorem State.Inv.setMk_valid : (s.setMk (masterKey s.cfg) true).Inv :=
  { h with
    mkey_of_invalid := nofun
    mkey_of_valid := fun _ t => masterKey_getElem s.cfg t }

theorem State.Inv.setMk_cleared : (s.setMk (Vector.replicate _ 0) false).Inv :=
  { h with
    mkey_of_invalid := fun _ t => by simp
    mkey_of_valid := nofun }

/-- Writing a salt byte sets its valid bit, and every other byte keeps its own. -/
theorem State.Inv.setSalt_byte (n : BitVec 3) (v : Byte) :
    (s.setSalt (s.salt.set n.toNat v n.isLt) (s.saltv ||| 1#8 <<< n.toNat)).Inv :=
  { h with
    salt_of_invalid := fun t ht => by
      rw [State.setSalt_saltv, getLsbD_or_bit, Bool.or_eq_false_iff, decide_eq_false_iff_not] at ht
      obtain ⟨hne, hinvalid⟩ := ht
      exact (Vector.getElem_set_ne n.isLt t.isLt (Ne.symm hne)).trans (h.salt_of_invalid t hinvalid) }

theorem State.Inv.setSalt_cleared : (s.setSalt (Vector.replicate _ 0) 0).Inv :=
  { h with salt_of_invalid := fun t _ => by simp }

theorem State.Inv.setDk_valid {bytes : List Byte} {n : Word} (hb : bytes.length = n.toNat)
    (hn : n.toNat ≤ s.cfg.dkMax) : (s.setDk bytes n true).Inv :=
  { h with
    dklen_le := hn
    dklen_of_invalid := nofun
    dk_length := hb }

theorem State.Inv.setDk_cleared : (s.setDk [] 0 false).Inv :=
  { h with
    dklen_le := Nat.zero_le _
    dklen_of_invalid := fun _ => rfl
    dk_length := rfl }

theorem State.Inv.setSbox_valid {b : Table} (hb : b.IsPermutation) : (s.setSbox b true).Inv :=
  { h with
    sbox_permutation := fun _ => hb
    sbox_of_invalid := nofun }

theorem State.Inv.setSbox_cleared : (s.setSbox (Vector.replicate _ 0) false).Inv :=
  { h with
    sbox_permutation := nofun
    sbox_of_invalid := fun _ x => by simp }

theorem State.Inv.setBuf {m : Memory} (hwf : m.wf) (hbelow : Memory.below s.cfg.bufSize m) : (s.setBuf m).Inv :=
  { h with
    buf_wf := hwf
    buf_below := hbelow }

/-- A recorded fault has one of the four causes. -/
theorem State.Inv.recordFault (c : Cause) (w : Word) : (s.recordFault c w).Inv :=
  { h with
    flt_iff := iff_of_false nofun c.code_ne_zero
    ecmd_of_normal := nofun
    cause_le := c.code_toNat_le }

theorem State.Inv.onBit {m : Byte} {n : Nat} {f : State → State} (hf : ∀ {u : State}, u.Inv → (f u).Inv) :
    (s.onBit m n f).Inv := by
  unfold State.onBit
  split
  · exact hf h
  · exact h

theorem State.Inv.zeroed (m : Byte) : (s.zeroed m).Inv := by
  unfold State.zeroed
  refine .onBit (.onBit (.onBit (.onBit (.onBit (.onBit (.onBit (.onBit h ?_) ?_) ?_) ?_) ?_) ?_) ?_) ?_
  · exact State.Inv.setMk_cleared
  · exact State.Inv.setSalt_cleared
  · exact State.Inv.setDk_cleared
  · exact State.Inv.setSbox_cleared
  · exact fun h => h.setH _
  · exact fun h => h.setDec _
  · exact fun h => (h.setBuf ⟨List.Pairwise.nil, nofun⟩ nofun).setBlen (Nat.zero_le _)
  · exact fun h => (h.setArg _).setDout _

/-! ### Commands and steps -/

theorem State.Inv.faultedEffect (i : Instr) : (faultedEffect s i).Inv := by
  cases i with
  | rd sel8 => exact h.setDout _
  | _ => exact h

/-- CRYPT stores as many bytes as it reads. -/
theorem State.Inv.cryptEffect : (effect s .crypt).Inv := by
  refine h.setBuf (Memory.writeFrom_wf h.buf_wf _ _) (Memory.writeFrom_below h.buf_below ?_)
  simpa using h.blen_le

/-- A command past its tests for a fault keeps the invariant. -/
theorem State.Inv.effect (hc : faultCause s i = none) : (effect s i).Inv := by
  cases i with
  | nop => exact h
  | sreset => exact resetWith_inv _ _ _
  | arglo v => exact h.setArg _
  | arghi v => exact h.setArg _
  | rd sel8 => exact h.setDout _
  | zero m => exact h.zeroed m
  | setblen => exact h.setBlen (by simpa [faultCause] using hc)
  | bwr v =>
    have hlt : s.arg.toNat < s.cfg.bufSize := by simpa [faultCause, argInBuf_iff] using hc
    exact (h.setBuf (Memory.write_wf h.buf_wf _ v) (Memory.write_below h.buf_below hlt v)).setArg _
  | brd => exact (h.setDout _).setArg _
  | saltw n v => exact h.setSalt_byte n v
  | hinit => exact h.setH _
  | hbyte v => exact h.setH _
  | oracle => exact h.setDec _
  | mkrec => exact h.setMk_valid
  | kdf =>
    have hle : s.arg.toNat ≤ s.cfg.dkMax := by
      simp only [faultCause] at hc
      split_ifs at hc
      omega
    exact h.setDk_valid (kdfn_length _ _ _) hle
  | sbinit => exact h.setSbox_valid (theInitialSboxIsAPermutation _ _)
  | crypt => exact h.cryptEffect

theorem State.Inv.exec (he : exec i s = .next t) : t.Inv := by
  cases exec_next_iff.mp he with
  | reset => exact resetWith_inv _ _ _
  | faulted => exact h.faultedEffect i
  | faults => exact h.recordFault _ _
  | completes _ _ hc => exact (h.effect hc).countCommand

theorem State.Inv.presentWord (hp : presentWord w s = .next t) : t.Inv := by
  cases hd : decode w with
  | ok i => exact h.exec ((presentWord_of_ok hd s).symm.trans hp)
  | error e =>
    obtain ⟨-, rfl⟩ | ⟨-, rfl⟩ := presentIllegal_next.mp ((presentWord_of_error hd s).symm.trans hp)
    · exact h
    · exact h.recordFault _ _

theorem State.Inv.step (hs : step s = .next t) : t.Inv := by
  cases hn : s.nextWord with
  | none => exact next_eq_next.mp ((step_of_noWord hn).symm.trans hs) ▸ h
  | some w => exact h.advance.presentWord ((step_of_word hn).symm.trans hs)

end operations

/-- Settles O19: a step keeps all state or presents a word, and each of a word's answers keeps the invariant. -/
theorem everyStepKeepsTheInvariant : Obligations.EveryStepKeepsTheInvariant := by
  unfold Obligations.EveryStepKeepsTheInvariant
  exact fun s t h => h.step

/-- Settles O20, by induction on the run. -/
theorem everyReachableStateSatisfiesTheInvariant : Obligations.EveryReachableStateSatisfiesTheInvariant := by
  unfold Obligations.EveryReachableStateSatisfiesTheInvariant
  intro s hs
  induction hs with
  | reset cfg prog => exact resetWith_inv cfg prog 0
  | step _ h ih => exact ih.step h

/-! ### The model's one stop (log entry 4) -/

/-- The model's stop, as R173's condition that no reachable state meets. -/
theorem noFault_and_stops_iff :
    faultCause s i = none ∧ stops s i = true ↔ i = .crypt ∧ s.sbv = true ∧ s.cfg.bufSize < s.blen.toNat := by
  cases i with
  | crypt => cases hs : s.sbv <;> simp [faultCause, stops, hs]
  | _ => simp [stops]

theorem exec_crypt_stops (hf : s.flt = false) (hsb : s.sbv = true) (hlt : s.cfg.bufSize < s.blen.toNat) :
    exec .crypt s = .fault .bufAddressAbsent := by
  obtain ⟨hc, hs⟩ := noFault_and_stops_iff.mpr ⟨rfl, hsb, hlt⟩
  simp only [exec_normal (i := .crypt) (by decide) hf, normalAnswer, hc, hs]
  rfl

/-- A command answers a next state, or it is the normal engine's CRYPT with `BLEN > BUF_SIZE`. -/
theorem exec_answers (i : Instr) (s : State) :
    (∃ t, exec i s = .next t) ∨
      (exec i s = .fault .bufAddressAbsent ∧ i = .crypt ∧ s.flt = false ∧ s.sbv = true ∧
        s.cfg.bufSize < s.blen.toNat) := by
  by_cases hi : i = .sreset
  · exact .inl ⟨_, exec_next_iff.mpr (.reset hi)⟩
  cases hf : s.flt with
  | true => exact .inl ⟨_, exec_faulted hi hf⟩
  | false =>
    cases hc : faultCause s i with
    | some c => exact .inl ⟨_, exec_next_iff.mpr (.faults hi hf hc)⟩
    | none =>
      cases hs : stops s i with
      | false => exact .inl ⟨_, exec_of_completes hi hf hc hs⟩
      | true =>
        obtain ⟨rfl, hsbv, hlt⟩ := noFault_and_stops_iff.mp ⟨hc, hs⟩
        exact .inr ⟨exec_crypt_stops hf hsbv hlt, rfl, rfl, hsbv, hlt⟩

theorem State.Inv.exists_exec (h : s.Inv) (i : Instr) : ∃ t, Machine.exec i s = .next t := by
  obtain hnext | ⟨-, -, -, -, hlt⟩ := exec_answers i s
  · exact hnext
  · exact absurd h.blen_le (Nat.not_le.mpr hlt)

theorem State.Inv.exists_presentWord (h : s.Inv) (w : Word) : ∃ t, Machine.presentWord w s = .next t := by
  cases hd : decode w with
  | ok i => exact presentWord_of_ok hd s ▸ h.exists_exec i
  | error e =>
    rw [presentWord_of_error hd]
    cases hf : s.flt with
    | true => exact ⟨_, unlessFaulted_faulted hf _⟩
    | false => exact ⟨_, unlessFaulted_normal hf _⟩

/-- Settles O21: the one stop is outside the invariant. -/
theorem noCommandStopsTheMachine : Obligations.NoCommandStopsTheMachine := by
  unfold Obligations.NoCommandStopsTheMachine
  refine ⟨fun i s h => h.exists_exec i, fun s h => ?_, fun i s r hr => ?_, fun i s r => ⟨fun hr => ?_, ?_⟩⟩
  · cases hn : s.nextWord with
    | none => exact ⟨s, step_of_noWord hn⟩
    | some w => exact step_of_word hn ▸ h.advance.exists_presentWord w
  · obtain ⟨t, ht⟩ | ⟨hstop, -⟩ := exec_answers i s
    · simp [ht] at hr
    · simp [hstop] at hr
  · obtain ⟨t, ht⟩ | ⟨hstop, hi, hf, hsb, hlt⟩ := exec_answers i s
    · simp [ht] at hr
    · rw [hstop, Host.Outcome.fault.injEq] at hr
      exact ⟨hi, hf, hsb, hlt, hr.symm⟩
  · rintro ⟨rfl, hf, hsb, hlt, rfl⟩
    exact exec_crypt_stops hf hsb hlt

end Sys2Proof.Machine
end

section
/-! PROOFS. The family 'other', the units' functions: the oracle on complements (42_oracle.md R132), Obfuscate and
Reconstruct (43_master_key.md R143), prefixes of a DerivedKey (44_kdf.md R151), and the key bytes that the S-box
reads (45_sbox_init.md R164). -/

namespace Sys2Proof.Machine

/-! ### The oracle on a seed and its complement (42_oracle.md R132) -/

theorem rotateLeft_not (x : Word) (n : Nat) : (~~~x).rotateLeft n = ~~~(x.rotateLeft n) := by
  ext k hk
  rw [BitVec.getElem_not, BitVec.getElem_rotateLeft, BitVec.getElem_rotateLeft]
  split <;> exact BitVec.getElem_not _

/-- The fold of a stride cancels a complement, which the rotation before it carries along. -/
theorem oracleStride_not (t : List Byte) (acc : Word) (i : Nat) :
    oracleStride t (~~~acc) i = oracleStride t acc i := by
  rw [oracleStride_eq_rotateLeft, oracleStride_eq_rotateLeft, ← BitVec.not_xor_left, rotateLeft_not, rotateLeft_not,
    ← BitVec.not_xor_left, ← BitVec.not_xor_right, BitVec.not_not]

theorem strideIndices_cons {len : Nat} (h : 1 ≤ len) : ∃ rest, strideIndices len = 0 :: rest := by
  obtain ⟨n, hn⟩ : ∃ n, (len + 3) / 4 = n + 1 := ⟨(len + 3) / 4 - 1, by omega⟩
  exact ⟨_, by rw [strideIndices, hn, List.range_succ_eq_map]; rfl⟩

theorem oracleAcc_not {t : List Byte} (ht : 1 ≤ t.length) (seed : Word) :
    oracleAcc t (seed ^^^ 0xFFFFFFFF) = oracleAcc t seed := by
  obtain ⟨rest, hrest⟩ := strideIndices_cons ht
  have hwhite : seed ^^^ 0xFFFFFFFF ^^^ oracleXor = ~~~(seed ^^^ oracleXor) := by
    rw [BitVec.xor_assoc, BitVec.xor_comm 0xFFFFFFFF, ← BitVec.xor_assoc]
    exact BitVec.xor_allOnes
  rw [oracleAcc, oracleAcc, hrest, List.foldl_cons, List.foldl_cons, hwhite, oracleStride_not]

/-- Settles O42: the first stride cancels the complement; the empty table has no stride. -/
theorem theOracleAnswersASeedAndItsComplementAlike : Obligations.TheOracleAnswersASeedAndItsComplementAlike := by
  unfold Obligations.TheOracleAnswersASeedAndItsComplementAlike
  refine ⟨fun t seed ht => ?_, fun seed => oracleOf_eq_decide [] seed⟩
  rw [oracleOf, oracleOf, oracleAcc_not ht]

/-! ### Reconstruct and Obfuscate (43_master_key.md R143) -/

/-- Settles O44, on each of the 256 bytes. -/
theorem reconstructAndObfuscateAreInverse : Obligations.ReconstructAndObfuscateAreInverse := by
  unfold Obligations.ReconstructAndObfuscateAreInverse
  decide

/-! ### Prefixes of a DerivedKey (44_kdf.md R151) -/

/-- Settles O46: the byte of a position does not depend on the length asked for. -/
theorem aShorterDerivedKeyIsAPrefixOfALonger : Obligations.AShorterDerivedKeyIsAPrefixOfALonger := by
  unfold Obligations.AShorterDerivedKeyIsAPrefixOfALonger
  intro mk salt n m h
  rw [kdfn, ← List.map_take, List.take_range, Nat.min_eq_left h, kdfn]

/-! ### The key bytes that SBINIT reads (45_sbox_init.md R164) -/

/-- Iterations read the key through `keyByte` alone. -/
theorem sboxRun_congr {dk dk' : List Byte} {n : Nat} (h : ∀ i < n, keyByte dk i = keyByte dk' i) (d : Bool) :
    sboxRun dk d n = sboxRun dk' d n := by
  induction n with
  | zero => rfl
  | succ n ih =>
    have hbyte := h n (Nat.lt_succ_self n)
    rw [sboxRun_succ, sboxRun_succ, ih fun i hi => h i (Nat.lt_succ_of_lt hi)]
    simp only [sboxStep, hbyte]

theorem sboxInit_congr {dk dk' : List Byte} (h : ∀ i < 256, keyByte dk i = keyByte dk' i) (d : Bool) :
    sboxInit dk d = sboxInit dk' d :=
  congrArg Prod.fst (sboxRun_congr h d)

/-- A key longer than the index is read without wrapping. -/
theorem keyByte_of_lt {dk : List Byte} {i : Nat} (h : i < dk.length) : keyByte dk i = dk.getD i 0 := by
  rw [keyByte, if_neg (by omega), Nat.mod_eq_of_lt h]

theorem keyByte_take {dk : List Byte} (h : 256 ≤ dk.length) {i : Nat} (hi : i < 256) :
    keyByte (dk.take 256) i = keyByte dk i := by
  rw [keyByte_of_lt (by rw [List.length_take]; omega), keyByte_of_lt (by omega), List.getD_eq_getElem?_getD,
    List.getD_eq_getElem?_getD, List.getElem?_take_of_lt hi]

theorem sboxInit_take {dk : List Byte} (h : 256 ≤ dk.length) (d : Bool) :
    sboxInit (dk.take 256) d = sboxInit dk d :=
  sboxInit_congr (fun _ hi => keyByte_take h hi) d

theorem keyByte_zero_key (i : Nat) : keyByte [0x00] i = keyByte [] i := by
  simp [keyByte, Nat.mod_one]

/-- Settles O50: 256 iterations read the first 256 key bytes. -/
theorem onlyTheFirst256KeyBytesMatter : Obligations.OnlyTheFirst256KeyBytesMatter := by
  unfold Obligations.OnlyTheFirst256KeyBytesMatter
  refine ⟨fun dk dk' d h h' heq => ?_, fun dk d h => sboxInit_take h d,
    sboxInit_congr fun i _ => keyByte_zero_key i⟩
  rw [← sboxInit_take h, heq, sboxInit_take h']

end Sys2Proof.Machine
end

section
/-! PROOFS. The family 'other', the keystream (46_keystream.md): one position (R170), the independence of the
SecretTable (R171), CRYPT (R173), and CryptBuffer as xor with a keystream (R174 to R176). -/

namespace Sys2Proof.Machine

variable {s t : State}

/-! ### One position (46_keystream.md R170, R171, R172) -/

/-- Both arms of the branch are the same swap (R171). -/
theorem keystreamSwap_eq (t : List Byte) (pos : Nat) (w : Table) (i j : Byte) :
    keystreamSwap t pos w i j = w.swapAt i j := by
  rw [keystreamSwap, ite_self]

/-- The new `j` of a position, from the entry before the swap. -/
def keystreamIndex (w : Table) (i j : Byte) : Byte := j + w.get (i + 1)

/-- The working table after a position. -/
def keystreamTable (w : Table) (i j : Byte) : Table := w.swapAt (i + 1) (keystreamIndex w i j)

/-- The byte that a position xors. -/
def keystreamOut (w : Table) (i j : Byte) : Byte :=
  keystreamByte (keystreamTable w i j) (i + 1) (keystreamIndex w i j)

theorem cryptFrom_cons (t : List Byte) (b : Byte) (bs : List Byte) (w : Table) (i j : Byte) (pos : Nat) :
    cryptFrom t (b :: bs) w i j pos =
      (b ^^^ keystreamOut w i j) ::
        cryptFrom t bs (keystreamTable w i j) (i + 1) (keystreamIndex w i j) (pos + 1) := by
  simp only [cryptFrom, keystreamSwap_eq]
  rfl

/-- Settles O60: a position's indices as sums, its table as a swap, its byte as a library rotation. -/
theorem eachPositionSwapsOnceAndXorsItsOutputByte : Obligations.EachPositionSwapsOnceAndXorsItsOutputByte := by
  unfold Obligations.EachPositionSwapsOnceAndXorsItsOutputByte
  refine ⟨fun _ _ _ => rfl, fun _ _ _ => rfl, fun _ _ _ _ _ => rfl, fun t b bs w i j pos => ?_⟩
  exact ⟨i + 1, keystreamIndex w i j, _, keystreamTable w i j, BitVec.toNat_add i 1, BitVec.toNat_add j _,
    Table.get_swapAt w _ _, BitVec.toNat_add _ _, cryptFrom_cons t b bs w i j pos⟩

/-- The swaps of `CryptBuffer` depend on no decision, so neither does the result. -/
theorem cryptFrom_eq_of_tables (t t' b : List Byte) (w : Table) (i j : Byte) (pos pos' : Nat) :
    cryptFrom t b w i j pos = cryptFrom t' b w i j pos' := by
  induction b generalizing w i j pos pos' with
  | nil => rfl
  | cons c b ih => rw [cryptFrom_cons, cryptFrom_cons, ih _ _ _ (pos + 1) (pos' + 1)]

/-- Settles O54, position by position. -/
theorem cryptBufferDoesNotDependOnTheSecretTable : Obligations.CryptBufferDoesNotDependOnTheSecretTable := by
  unfold Obligations.CryptBufferDoesNotDependOnTheSecretTable
  exact fun b s0 t t' => cryptFrom_eq_of_tables t t' b s0 0 0 0 0

/-! ### CryptBuffer as xor with a keystream (46_keystream.md R174) -/

/-- The keystream from a position on: what the positions xor into zero bytes. -/
theorem cryptFrom_eq_zipWith (t b : List Byte) (w : Table) (i j : Byte) (pos : Nat) :
    cryptFrom t b w i j pos =
      List.zipWith (· ^^^ ·) b (cryptFrom t (List.replicate b.length 0) w i j pos) := by
  induction b generalizing w i j pos with
  | nil => rfl
  | cons c b ih =>
    have hzero : (0 : Byte) ^^^ keystreamOut w i j = keystreamOut w i j := BitVec.zero_xor
    rw [List.length_cons, List.replicate_succ, cryptFrom_cons, cryptFrom_cons, List.zipWith_cons_cons, ← ih, hzero]

theorem cryptBuffer_eq_zipWith (b : List Byte) (s0 : Table) (t : List Byte) :
    cryptBuffer b s0 t = List.zipWith (· ^^^ ·) b (keystream b.length s0 t) :=
  cryptFrom_eq_zipWith t b s0 0 0 0

/-- Table and indices do not depend on the buffer, so a second pass xors the same bytes. -/
theorem cryptFrom_cryptFrom (t b : List Byte) (w : Table) (i j : Byte) (pos : Nat) :
    cryptFrom t (cryptFrom t b w i j pos) w i j pos = b := by
  induction b generalizing w i j pos with
  | nil => rfl
  | cons c b ih => rw [cryptFrom_cons, cryptFrom_cons, ih, BitVec.xor_assoc, BitVec.xor_self, BitVec.xor_zero]

theorem cryptBuffer_cryptBuffer (b : List Byte) (s0 : Table) (t : List Byte) :
    cryptBuffer (cryptBuffer b s0 t) s0 t = b :=
  cryptFrom_cryptFrom t b s0 0 0 0

theorem take_cryptFrom (t b : List Byte) (n : Nat) (w : Table) (i j : Byte) (pos : Nat) :
    (cryptFrom t b w i j pos).take n = cryptFrom t (b.take n) w i j pos := by
  induction b generalizing n w i j pos with
  | nil => simp [cryptFrom]
  | cons c b ih =>
    cases n with
    | zero => rfl
    | succ n => rw [cryptFrom_cons, List.take_succ_cons, List.take_succ_cons, cryptFrom_cons, ih]

/-- Settles O53, by inductions along the positions. -/
theorem cryptBufferIsXorWithAKeystream : Obligations.CryptBufferIsXorWithAKeystream := by
  unfold Obligations.CryptBufferIsXorWithAKeystream
  refine fun s0 t => ⟨fun b => ⟨cryptBuffer_length b s0 t, cryptBuffer_eq_zipWith b s0 t⟩,
    fun b => cryptBuffer_cryptBuffer b s0 t, fun n m h => ?_⟩
  rw [keystream, cryptBuffer, take_cryptFrom, List.take_replicate, Nat.min_eq_left h]
  rfl

/-- Settles O55: every position swaps, and CRYPT is no writer of `SBOX0`. -/
theorem theWorkingTableStaysAPermutation : Obligations.TheWorkingTableStaysAPermutation := by
  unfold Obligations.TheWorkingTableStaysAPermutation
  refine ⟨fun t pos w i j h => ?_, fun s t h => ?_⟩
  · rw [keystreamSwap_eq]
    exact Table.isPermutation_swapAt h i j
  · exact congrArg Prod.snd (exec_keeps_sbox h (by decide))

/-! ### CRYPT (46_keystream.md R173) -/

/-- The buffer memory after CRYPT's effect. -/
def cryptedBuf (s : State) : Memory :=
  s.buf.writeFrom 0 (cryptBuffer (s.buf.readPrefix s.blen.toNat) s.sbox0 s.cfg.secret)

theorem exec_crypt_normal (hf : s.flt = false) (hsb : s.sbv = true) (hle : s.blen.toNat ≤ s.cfg.bufSize) :
    exec .crypt s = .next (s.setBuf (cryptedBuf s)).countCommand :=
  execCrypt_next.mpr (.inr (.inr ⟨hf, hsb, hle, rfl⟩))

theorem cryptedBuf_readPrefix (hwf : s.buf.wf) :
    (cryptedBuf s).readPrefix s.blen.toNat =
      cryptBuffer (s.buf.readPrefix s.blen.toNat) s.sbox0 s.cfg.secret := by
  refine List.ext_getElem (by simp) fun n hn hn' => ?_
  rw [Memory.readPrefix_getElem, cryptedBuf]
  simpa using Memory.read_writeFrom hwf (a := 0) hn'

theorem cryptedBuf_read_other {a : Nat} (ha : s.blen.toNat ≤ a) : (cryptedBuf s).read a = s.buf.read a :=
  Memory.read_writeFrom_other (.inr (by simpa using ha))

theorem cryptedBuf_of_blen_zero (h : s.blen = 0) : cryptedBuf s = s.buf := by
  rw [cryptedBuf, h]
  rfl

/-- The rule's example: `i' = 01`, `j' = 08`, and the output entry `S[4D]` turned right by one. -/
theorem keystreamOut_example {s0 : Table} (h1 : s0.get 0x01 = 0x08) (h8 : s0.get 0x08 = 0x45)
    (h4D : s0.get 0x4D = 0x80) : keystreamOut s0 0 0 = 0x40 := by
  have hi : (0 : Byte) + 1 = 0x01 := rfl
  have hj : keystreamIndex s0 0 0 = 0x08 := by rw [keystreamIndex, hi, h1]; rfl
  have hw (x : Byte) :
      (keystreamTable s0 0 0).get x = if x = 0x01 then 0x45 else if x = 0x08 then 0x08 else s0.get x := by
    rw [keystreamTable, hi, hj, Table.get_swapAt, h1, h8]
  have hw1 : (keystreamTable s0 0 0).get 0x01 = 0x45 := hw 0x01
  have hw8 : (keystreamTable s0 0 0).get 0x08 = 0x08 := hw 0x08
  have hw4D : (keystreamTable s0 0 0).get (0x45 + 0x08) = 0x80 := (hw 0x4D).trans h4D
  rw [keystreamOut, keystreamByte, hi, hj, hw1, hw8, hw4D]
  rfl

/-- Settles O52: the bytes below `BLEN` and those from it on; the rule's example is one position. -/
theorem cryptTransformsTheActiveBuffer : Obligations.CryptTransformsTheActiveBuffer := by
  unfold Obligations.CryptTransformsTheActiveBuffer
  refine ⟨rfl, fun s hf hwf hle => ⟨fun hsb => ?_, exec_crypt_uninit hf⟩, fun s0 t h1 h8 h4D => ?_⟩
  · refine ⟨_, exec_crypt_normal hf hsb hle, cryptedBuf_readPrefix hwf, fun a => cryptedBuf_read_other, rfl,
      fun h => ?_⟩
    rw [cryptedBuf_of_blen_zero h]
    rfl
  · rw [cryptBuffer, cryptFrom_cons, keystreamOut_example h1 h8 h4D]
    rfl

theorem exec_crypt_next_normal (hf : s.flt = false) (hsb : s.sbv = true) (h : exec .crypt s = .next t) :
    t = (s.setBuf (cryptedBuf s)).countCommand := by
  obtain ⟨hn, -⟩ | ⟨-, hn, -⟩ | ⟨-, -, -, rfl⟩ := execCrypt_next.mp h
  · simp [hf] at hn
  · simp [hsb] at hn
  · rfl

theorem read_eq_of_readPrefix_eq {m m' : Memory} {n a : Nat} (h : m.readPrefix n = m'.readPrefix n) (ha : a < n) :
    m.read a = m'.read a :=
  List.map_inj_left.mp h a (List.mem_range.mpr ha)

/-- The second pass reads what the first wrote and restores it; from `BLEN` on neither writes. -/
theorem cryptedBuf_cryptedBuf (hwf : s.buf.wf) : cryptedBuf (s.setBuf (cryptedBuf s)) = s.buf := by
  have hwf' : (cryptedBuf s).wf := Memory.writeFrom_wf hwf _ _
  have hprefix : (cryptedBuf (s.setBuf (cryptedBuf s))).readPrefix s.blen.toNat =
      s.buf.readPrefix s.blen.toNat := by
    calc (cryptedBuf (s.setBuf (cryptedBuf s))).readPrefix s.blen.toNat
        = cryptBuffer ((cryptedBuf s).readPrefix s.blen.toNat) s.sbox0 s.cfg.secret :=
          cryptedBuf_readPrefix (s := s.setBuf (cryptedBuf s)) hwf'
      _ = s.buf.readPrefix s.blen.toNat := by rw [cryptedBuf_readPrefix hwf, cryptBuffer_cryptBuffer]
  refine Memory.eq_of_read_eq (Memory.writeFrom_wf hwf' _ _) hwf fun a => ?_
  rcases Nat.lt_or_ge a s.blen.toNat with ha | ha
  · exact read_eq_of_readPrefix_eq hprefix ha
  · exact (cryptedBuf_read_other (s := s.setBuf (cryptedBuf s)) ha).trans (cryptedBuf_read_other ha)

/-- Settles O56, by the buffer after both passes. -/
theorem aSecondCryptRestoresTheBuffer : Obligations.ASecondCryptRestoresTheBuffer := by
  unfold Obligations.ASecondCryptRestoresTheBuffer
  intro s t u hf hsb hwf ht hu
  obtain rfl := exec_crypt_next_normal hf hsb ht
  obtain rfl := exec_crypt_next_normal (by exact hf) (by exact hsb) hu
  have hbuf : cryptedBuf (s.setBuf (cryptedBuf s)).countCommand = s.buf := cryptedBuf_cryptedBuf hwf
  have hcidx : s.cidx + 1#32 + 1#32 = s.cidx + 2#32 := BitVec.add_assoc s.cidx 1 1
  rw [hbuf]
  simp [State.countCommand, State.setBuf, hcidx]

end Sys2Proof.Machine
end

section
/-! PROOFS. The family 'other', the host's side: Parse (47_container_host.md R180 to R183), and several engines
(60_exceptions.md R213). -/

namespace Sys2Proof.Machine

variable {f : List Byte}

/-! ### Parse (47_container_host.md R182) -/

theorem parse_of_short (h : f.length < 20) : parse f = .error .formatError :=
  if_pos h

theorem parse_of_magic (h : f.take 4 ≠ magic) : parse f = .error .formatError := by
  rw [parse, if_pos h, ite_self]

theorem parse_of_truncated (h : f.length - 20 < payloadLength f) : parse f = .error .formatError := by
  have h : f.length - headerLen < payloadLength f := h
  rw [parse, if_pos h, ite_self, ite_self]

/-- A list that passes the three tests parses to its fields. -/
theorem parse_of_passes (hlen : headerLen ≤ f.length) (hmagic : f.take 4 = magic)
    (hpay : payloadLength f ≤ f.length - headerLen) :
    parse f = .ok ⟨f.getD 4 0, fieldAt f 5 3, fieldAt f 8 8, (f.drop headerLen).take (payloadLength f)⟩ := by
  rw [parse, if_neg (Nat.not_lt.mpr hlen), if_neg (not_not.mpr hmagic), if_neg (Nat.not_lt.mpr hpay)]

/-- Parse has no other error (R182). -/
theorem error_of_parse {e : HostError} (h : parse f = .error e) : e = .formatError := by
  unfold parse at h
  split_ifs at h <;> exact (Except.error.inj h).symm

/-- Four bytes declare less than 2^32 (R181). -/
theorem payloadLength_lt (f : List Byte) : payloadLength f < 2 ^ 32 := by
  have h0 := (f.getD 16 0).isLt
  have h1 := (f.getD 17 0).isLt
  have h2 := (f.getD 18 0).isLt
  have h3 := (f.getD 19 0).isLt
  unfold payloadLength
  omega

theorem payload_length_lt {c : Container} (h : parse f = .ok c) : c.payload.length < 2 ^ 32 := by
  unfold parse at h
  split_ifs at h
  obtain rfl := Except.ok.inj h
  exact (List.length_take_le _ _).trans_lt (payloadLength_lt f)

/-! ### The fields of a layout (47_container_host.md R180, R181) -/

theorem getD_append_add {before : List Byte} {a : Nat} (ha : before.length = a) (l : List Byte) (k : Nat) :
    (before ++ l).getD (a + k) 0 = l.getD k 0 := by
  rw [List.getD_append_right _ _ _ _ (by omega), ha, Nat.add_sub_cancel_left]

/-- A field stands where the bytes before it end. -/
theorem fieldAt_append {n a : Nat} {before : List Byte} (ha : before.length = a) (v : Vector Byte n)
    (after : List Byte) : fieldAt (before ++ (v.toList ++ after)) a n = v := by
  refine Vector.ext fun t ht => ?_
  rw [fieldAt, Vector.getElem_ofFn, getD_append_add ha, List.getD_append _ _ _ _ (by simpa using ht)]
  simp [ht]

/-- The four bytes of a length, least significant first, are the length. -/
theorem payloadLength_append {n : Nat} {before : List Byte} (ha : before.length = 16) (hn : n < 2 ^ 32)
    (after : List Byte) : payloadLength (before ++ (lengthBytes n ++ after)) = n := by
  have byte (k : Nat) := getD_append_add ha (lengthBytes n ++ after) k
  rw [payloadLength, byte 0, byte 1, byte 2, byte 3]
  simp [lengthBytes]
  omega

theorem header_length (c : Container) :
    (magic ++ [c.version] ++ c.reserved.toList ++ c.salt.toList ++ lengthBytes c.payload.length).length =
      headerLen := by
  simp [magic, lengthBytes, headerLen]

/-- Every field stands after the fields before it, so the layout is cut before each field in turn. -/
theorem parse_layout (c : Container) (extra : List Byte) (h : c.payload.length < 2 ^ 32) :
    parse (c.layout ++ extra) = .ok c := by
  have hreserved : c.layout ++ extra = (magic ++ [c.version]) ++
      (c.reserved.toList ++ (c.salt.toList ++ (lengthBytes c.payload.length ++ (c.payload ++ extra)))) := by
    simp [Container.layout]
  have hsalt : c.layout ++ extra = (magic ++ [c.version] ++ c.reserved.toList) ++
      (c.salt.toList ++ (lengthBytes c.payload.length ++ (c.payload ++ extra))) := by
    simp [Container.layout]
  have hlength : c.layout ++ extra = (magic ++ [c.version] ++ c.reserved.toList ++ c.salt.toList) ++
      (lengthBytes c.payload.length ++ (c.payload ++ extra)) := by
    simp [Container.layout]
  have hpayload : c.layout ++ extra =
      (magic ++ [c.version] ++ c.reserved.toList ++ c.salt.toList ++ lengthBytes c.payload.length) ++
        (c.payload ++ extra) := by
    simp [Container.layout]
  have hn : payloadLength (c.layout ++ extra) = c.payload.length := by
    rw [hlength]
    exact payloadLength_append (by simp [magic]) h _
  have hlen : (c.layout ++ extra).length = headerLen + (c.payload ++ extra).length := by
    rw [hpayload, List.length_append, header_length]
  have hfit : c.payload.length ≤ (c.layout ++ extra).length - headerLen := by
    rw [hlen, Nat.add_sub_cancel_left, List.length_append]
    exact Nat.le_add_right _ _
  have h4 : (c.layout ++ extra).getD 4 0 = c.version := rfl
  have h5 : fieldAt (c.layout ++ extra) 5 3 = c.reserved := by
    rw [hreserved]
    exact fieldAt_append rfl c.reserved _
  have h8 : fieldAt (c.layout ++ extra) 8 8 = c.salt := by
    rw [hsalt]
    exact fieldAt_append (by simp [magic]) c.salt _
  have h20 : ((c.layout ++ extra).drop headerLen).take c.payload.length = c.payload := by
    rw [hpayload, List.drop_left' (header_length c), List.take_left' rfl]
  rw [parse_of_passes (hlen ▸ Nat.le_add_right _ _) rfl (hn.symm ▸ hfit), hn, h4, h5, h8, h20]

/-- Settles O57: each field of a layout by its offset, and the three tests of Parse. -/
theorem parseAcceptsTheLayoutAndRejectsTheThreeErrors :
    Obligations.ParseAcceptsTheLayoutAndRejectsTheThreeErrors := by
  unfold Obligations.ParseAcceptsTheLayoutAndRejectsTheThreeErrors
  exact ⟨parse_layout, fun f => parse_of_short, fun f => parse_of_magic, fun f => parse_of_truncated,
    fun f e => error_of_parse⟩

/-! ### Several engines (60_exceptions.md R213) -/

/-- An engine that exists steps by itself, and only its own place in the list changes. -/
theorem stepEngine_next {n : Nat} {engines after : List State} {s : State} (hs : engines[n]? = some s)
    (h : stepEngine n engines = .next after) : ∃ t, step s = .next t ∧ after = engines.set n t := by
  simp only [stepEngine, hs] at h
  cases ht : step s with
  | next t =>
    rw [ht] at h
    exact ⟨t, rfl, (Host.Outcome.next.inj h).symm⟩
  | fault r => simp [ht] at h
  | refused r => simp [ht] at h

/-- Settles O59: the list is set at one place. -/
theorem enginesAreIndependent : Obligations.EnginesAreIndependent := by
  unfold Obligations.EnginesAreIndependent
  intro n engines after s hs h
  obtain ⟨t, ht, rfl⟩ := stepEngine_next hs h
  obtain ⟨hn, -⟩ := List.getElem?_eq_some_iff.mp hs
  exact ⟨⟨t, ht, List.getElem?_set_self hn⟩, fun m hm => List.getElem?_set_ne hm.symm⟩

end Sys2Proof.Machine
end

section
/-! PROOFS. The family 'other', the host's decrypt procedure (47_container_host.md R185 to R188): what a list of
commands reaches, stage by stage of R185's list, and that the bytes it collects are those of Decrypt (R184). -/

namespace Sys2Proof.Machine

variable {s t : State} {i : Instr} {is js : List Instr} {P Q : State → Prop}

/-! ### What a list of commands reaches -/

/-- Presenting the list from `s` ends in a state of which `P` holds. -/
def Reaches (is : List Instr) (s : State) (P : State → Prop) : Prop := ∃ t, presentAll is s = .next t ∧ P t

theorem Reaches.nil (h : P s) : Reaches [] s P := ⟨s, rfl, h⟩

theorem presentWord_encode (hwf : i.wf = true) (s : State) : presentWord (encode i) s = exec i s :=
  presentWord_of_ok (decode_encode hwf) s

theorem Reaches.cons (he : exec i s = .next t) (h : Reaches is t P) (hwf : i.wf = true := by rfl) :
    Reaches (i :: is) s P := by
  obtain ⟨u, hu, hP⟩ := h
  refine ⟨u, ?_, hP⟩
  rw [presentAll, presentWord_encode hwf, he]
  exact hu

theorem Reaches.append (h : Reaches is s P) (h' : ∀ t, P t → Reaches js t Q) : Reaches (is ++ js) s Q := by
  obtain ⟨t, ht, hP⟩ := h
  obtain ⟨u, hu, hQ⟩ := h' t hP
  exact ⟨u, (presentAll_append is js ht).trans hu, hQ⟩

/-! ### Operands and the salt (30_encoding.md R94) -/

/-- LDARG assembles its operand (R88). -/
theorem ldarg_reaches (hf : s.flt = false) (v : Word) :
    Reaches (ldarg v) s (· = { s with arg := v, cidx := s.cidx + 2 }) := by
  have hlo := exec_arglo_normal hf (v.extractLsb' 0 16)
  have hhi := exec_arghi_normal (s := (s.setArg (lowOperand (v.extractLsb' 0 16))).countCommand) hf
    (v.extractLsb' 16 16)
  obtain ⟨hassembles, -⟩ := argloThenArghiAssembleAnOperand v s _ _ hf
  exact .cons hlo (.cons hhi (.nil (hassembles hlo hhi)))

/-- The state without what SALTW writes. -/
def withoutSalt (s : State) : State := { s with salt := Vector.replicate _ 0, saltv := 0, cidx := 0 }

/-- Byte `k` of a salt stands in `SALT` and is valid. -/
def SaltByteLoaded (salt : Vector Byte 8) (k : Fin 8) (s : State) : Prop :=
  s.salt[k] = salt[k] ∧ s.saltv.getLsbD k.val = true

/-- SALTW loads its byte and keeps those that stand loaded. -/
theorem exec_saltw_loads (hf : s.flt = false) (salt : Vector Byte 8) (n : Fin 8) :
    ∃ t, exec (.saltw (BitVec.ofNat 3 n.val) salt[n]) s = .next t ∧ withoutSalt t = withoutSalt s ∧
      ∀ k, k = n ∨ SaltByteLoaded salt k s → SaltByteLoaded salt k t := by
  obtain ⟨-, -, hsaltw, -⟩ := saltwWritesOneSaltByteAndItsValidBit
  obtain ⟨t, ht, hsalt, hvalid, -, hframe⟩ := hsaltw s hf (BitVec.ofNat 3 n.val) salt[n]
  have hn : (BitVec.ofNat 3 n.val).toNat = n.val := Nat.mod_eq_of_lt n.isLt
  refine ⟨t, ht, hframe ▸ rfl, fun k hk => ?_⟩
  rw [SaltByteLoaded, hsalt, hvalid k.val k.isLt, hn]
  by_cases hkn : k = n
  · subst hkn
    simp
  · obtain ⟨hbyte, hbit⟩ := hk.resolve_left hkn
    simp [Fin.val_ne_of_ne hkn, hbyte, hbit]

/-- SALTWs load the bytes they name. -/
theorem saltw_reaches (salt : Vector Byte 8) (ks : List (Fin 8)) {s : State} (hf : s.flt = false) :
    Reaches (ks.map fun k => .saltw (BitVec.ofNat 3 k.val) salt[k]) s fun t =>
      withoutSalt t = withoutSalt s ∧ ∀ k, k ∈ ks ∨ SaltByteLoaded salt k s → SaltByteLoaded salt k t := by
  induction ks generalizing s with
  | nil => exact .nil ⟨rfl, fun k hk => hk.resolve_left List.not_mem_nil⟩
  | cons n ks ih =>
    obtain ⟨t, ht, hframe, hloads⟩ := exec_saltw_loads hf salt n
    obtain ⟨u, hu, hframe', hloads'⟩ := ih (s := t) ((congrArg State.flt hframe).trans hf)
    refine .cons ht ⟨u, hu, hframe'.trans hframe, fun k hk => hloads' k ?_⟩
    rw [List.mem_cons, or_right_comm] at hk
    exact hk.elim (fun h => .inr (hloads k h)) .inl

/-- SALT8 makes a salt present (10_state.md R27). -/
theorem salt8_reaches (salt : Vector Byte 8) (hf : s.flt = false) :
    Reaches (salt8 salt) s fun t => withoutSalt t = withoutSalt s ∧ t.salt = salt ∧ t.saltv = 0xFF := by
  obtain ⟨t, ht, hframe, hloads⟩ := saltw_reaches salt (List.finRange 8) hf
  have hloaded (k : Fin 8) : SaltByteLoaded salt k t := hloads k (.inl (List.mem_finRange k))
  refine ⟨t, ht, hframe, Vector.ext fun k hk => (hloaded ⟨k, hk⟩).1, ?_⟩
  exact (eq_0xFF_iff t.saltv).mpr fun k hk => (hloaded ⟨k, hk⟩).2

/-! ### The buffer (47_container_host.md R185) -/

/-- The state without what BWR writes. -/
def withoutBuf (s : State) : State := { s with buf := [], arg := 0, cidx := 0 }

theorem ofNat_toNat_of_lt {a : Nat} (h : a < 2 ^ 32) : (BitVec.ofNat 32 a).toNat = a :=
  Nat.mod_eq_of_lt h

/-- `ARG` moves from address to address; after the last of 2^32 it may wrap. -/
theorem arg_succ {a : Nat} (h : s.arg = BitVec.ofNat 32 a) : s.arg + 1 = BitVec.ofNat 32 (a + 1) := by
  rw [h, BitVec.ofNat_add]
  rfl

theorem extractLsb'_setWidth_byte (b : Byte) : (b.setWidth 32).extractLsb' 0 8 = b := by
  rw [BitVec.extractLsb'_setWidth_of_le (by decide), extract_all]

/-- BWRs store their bytes at consecutive addresses. -/
theorem bwr_reaches {bytes : List Byte} {a : Nat} {s : State} (hf : s.flt = false) (ha : s.arg = BitVec.ofNat 32 a)
    (hle : a + bytes.length ≤ s.cfg.bufSize) :
    Reaches (bytes.map .bwr) s fun t => withoutBuf t = withoutBuf s ∧ t.buf = s.buf.writeFrom a bytes := by
  induction bytes generalizing a s with
  | nil => exact .nil ⟨rfl, rfl⟩
  | cons b bytes ih =>
    rw [List.length_cons] at hle
    have hcap := s.cfg.bufSize_le
    have harg : s.arg.toNat = a := ha ▸ ofNat_toNat_of_lt (by omega)
    have ht : exec (.bwr b) s = .next (s.setBuf (s.buf.write a b)).stepArg.countCommand :=
      execBwr_next.mpr (.inr (.inr ⟨hf, by omega, by rw [harg]⟩))
    obtain ⟨u, hu, hframe, hbuf⟩ := ih (s := (s.setBuf (s.buf.write a b)).stepArg.countCommand) hf (arg_succ ha)
      (show a + 1 + bytes.length ≤ s.cfg.bufSize by omega)
    exact .cons ht ⟨u, hu, hframe, hbuf⟩

/-- BRDs give the host the bytes from the address in `ARG` on. -/
theorem collect_normal {n a : Nat} {s : State} (hf : s.flt = false) (ha : s.arg = BitVec.ofNat 32 a)
    (hle : a + n ≤ s.cfg.bufSize) :
    ∃ u, collect n s = some ((List.range' a n).map s.buf.read, u) ∧ u.flt = false := by
  induction n generalizing a s with
  | zero => exact ⟨s, rfl, hf⟩
  | succ n ih =>
    have hcap := s.cfg.bufSize_le
    have harg : s.arg.toNat = a := ha ▸ ofNat_toNat_of_lt (by omega)
    have ht := exec_brd_normal hf (show s.arg.toNat < s.cfg.bufSize by omega)
    obtain ⟨u, hu, hfu⟩ := ih (a := a + 1)
      (s := { s with dout := (s.bufByte s.arg.toNat).setWidth 32, arg := s.arg + 1, cidx := s.cidx + 1 }) hf
      (arg_succ ha) (show a + 1 + n ≤ s.cfg.bufSize by omega)
    refine ⟨u, ?_, hfu⟩
    rw [collect, presentWord_encode rfl, ht]
    dsimp only
    rw [hu, extractLsb'_setWidth_byte, harg, List.range'_succ]
    rfl

/-! ### The stages of the list (47_container_host.md R185) -/

/-- After lines 1 to 4: the operands of KDF, and an empty buffer. -/
structure KdfReady (cfg : Config) (salt : Vector Byte 8) (t : State) : Prop where
  flt : t.flt = false
  cfg_eq : t.cfg = cfg
  mkv : t.mkv = true
  mkey : t.mkey = masterKey cfg
  saltv : t.saltv = 0xFF
  salt : t.salt = salt
  arg : t.arg = BitVec.ofNat 32 pipeDkLen
  buf : t.buf = []

/-- After lines 5 and 6: the DerivedKey of the salt. -/
structure SbinitReady (cfg : Config) (salt : Vector Byte 8) (t : State) : Prop where
  flt : t.flt = false
  cfg_eq : t.cfg = cfg
  dkv : t.dkv = true
  dk : t.dk = kdfn (masterKey cfg).toList (some salt.toList) pipeDkLen
  buf : t.buf = []

/-- After lines 5 to 8: the S-box of the salt, with a buffer memory that line 9 fills. -/
structure SboxReady (cfg : Config) (salt : Vector Byte 8) (m : Memory) (t : State) : Prop where
  flt : t.flt = false
  cfg_eq : t.cfg = cfg
  sbv : t.sbv = true
  sbox0 : t.sbox0 = pipelineSbox cfg salt.toList
  buf : t.buf = m

/-- The buffer memory of a payload from address 0 on (line 9). -/
def payloadBuf (payload : List Byte) : Memory := Memory.writeFrom [] 0 payload

theorem payloadBuf_wf (payload : List Byte) : (payloadBuf payload).wf :=
  Memory.writeFrom_wf ⟨List.Pairwise.nil, nofun⟩ 0 payload

theorem payloadBuf_readPrefix (payload : List Byte) : (payloadBuf payload).readPrefix payload.length = payload := by
  refine List.ext_getElem (by simp) fun n hn hn' => ?_
  rw [Memory.readPrefix_getElem, payloadBuf]
  simpa using Memory.read_writeFrom (m := []) ⟨List.Pairwise.nil, nofun⟩ (a := 0) hn'

/-- After line 13: the decrypted payload in the buffer. -/
structure PayloadDecrypted (cfg : Config) (salt : Vector Byte 8) (payload : List Byte) (t : State) : Prop where
  flt : t.flt = false
  cfg_eq : t.cfg = cfg
  buf : t.buf.readPrefix payload.length = cryptBuffer payload (pipelineSbox cfg salt.toList) cfg.secret

theorem zero_reaches {m : Byte} (hf : s.flt = false) (h : P (s.zeroed m).countCommand) : Reaches [.zero m] s P :=
  .cons (exec_zero_normal hf m) (.nil h)

/-- Lines 1 to 4. -/
theorem kdfOperands_reach (s : State) (salt : Vector Byte 8) :
    Reaches ([.sreset, .mkrec] ++ salt8 salt ++ ldarg (BitVec.ofNat 32 pipeDkLen)) s (KdfReady s.cfg salt) := by
  have hkeys : Reaches [.sreset, .mkrec] s (· = (s.hardwareReset.setMk (masterKey s.cfg) true).countCommand) :=
    .cons rfl (.cons (exec_mkrec_normal rfl) (.nil rfl))
  refine (hkeys.append (Q := fun u => withoutSalt u = withoutSalt (s.hardwareReset.setMk (masterKey s.cfg) true) ∧
    u.salt = salt ∧ u.saltv = 0xFF) ?_).append ?_
  · rintro t rfl
    exact salt8_reaches salt rfl
  · rintro u ⟨hframe, hsalt, hsaltv⟩
    have hf : u.flt = false := (congrArg State.flt hframe :)
    obtain ⟨t, ht, rfl⟩ := ldarg_reaches hf (BitVec.ofNat 32 pipeDkLen)
    have hcfg : u.cfg = s.cfg := (congrArg State.cfg hframe :)
    have hmkv : u.mkv = true := (congrArg State.mkv hframe :)
    have hmkey : u.mkey = masterKey s.cfg := (congrArg State.mkey hframe :)
    have hbuf : u.buf = [] := (congrArg State.buf hframe :)
    exact ⟨_, ht, hf, hcfg, hmkv, hmkey, hsaltv, hsalt, rfl, hbuf⟩

section stages

variable {cfg : Config} {salt : Vector Byte 8} {payload : List Byte}

/-- Lines 5 and 6. -/
theorem derivedKey_reaches (h : KdfReady cfg salt s) : Reaches [.kdf, .zero 0x01] s (SbinitReady cfg salt) := by
  have hlen : s.arg.toNat = pipeDkLen := h.arg ▸ rfl
  have hkdf := exec_kdf_derives h.flt h.mkv (saltPartial_of_present h.saltv) (saltOperand_of_present h.saltv)
    (hlen ▸ s.cfg.dkMax_ge)
  refine .cons hkdf (zero_reaches (by exact h.flt) ⟨?_, ?_, ?_, ?_, ?_⟩)
  · simp [h.flt]
  · simp [h.cfg_eq]
  · simp
  · simp [h.mkey, h.salt, hlen]
  · simp [h.buf]

/-- Lines 7 and 8. -/
theorem sbox_reaches (h : SbinitReady cfg salt s) : Reaches [.sbinit, .zero 0x06] s (SboxReady cfg salt []) := by
  refine .cons (exec_sbinit_builds h.flt h.dkv) (zero_reaches (by exact h.flt) ⟨?_, ?_, ?_, ?_, ?_⟩)
  · simp [h.flt]
  · simp [h.cfg_eq]
  · simp
  · simp [h.dk, h.cfg_eq, pipelineSbox]
  · simp [h.buf]

/-- Line 9. -/
theorem payload_reaches (h : SboxReady cfg salt [] s) (hle : payload.length ≤ cfg.bufSize) :
    Reaches (bload 0 payload) s (SboxReady cfg salt (payloadBuf payload)) := by
  refine (ldarg_reaches h.flt 0).append fun t ht => ?_
  subst ht
  have hfits : 0 + payload.length ≤ s.cfg.bufSize := by rwa [h.cfg_eq, Nat.zero_add]
  obtain ⟨u, hu, hframe, hbuf⟩ := bwr_reaches (s := { s with arg := 0, cidx := s.cidx + 2 }) h.flt rfl hfits
  refine ⟨u, hu, ?_, ?_, ?_, ?_, ?_⟩
  · exact (congrArg State.flt hframe).trans h.flt
  · exact (congrArg State.cfg hframe).trans h.cfg_eq
  · exact (congrArg State.sbv hframe).trans h.sbv
  · exact (congrArg State.sbox0 hframe).trans h.sbox0
  · exact hbuf.trans (congrArg (Memory.writeFrom · 0 payload) h.buf)

/-- Lines 12 and 13. -/
theorem crypt_reaches (h : SboxReady cfg salt (payloadBuf payload) s) (hle : payload.length ≤ cfg.bufSize)
    (hblen : s.blen.toNat = payload.length) :
    Reaches [.crypt, .zero 0x08] s (PayloadDecrypted cfg salt payload) := by
  have hwf : s.buf.wf := h.buf ▸ payloadBuf_wf payload
  have hprefix : (cryptedBuf s).readPrefix payload.length =
      cryptBuffer payload (pipelineSbox cfg salt.toList) cfg.secret := by
    rw [← hblen, cryptedBuf_readPrefix hwf, hblen, h.buf, payloadBuf_readPrefix, h.sbox0, h.cfg_eq]
  have hfits : s.blen.toNat ≤ s.cfg.bufSize := by rwa [hblen, h.cfg_eq]
  refine .cons (exec_crypt_normal h.flt h.sbv hfits) (zero_reaches (by exact h.flt) ⟨?_, ?_, ?_⟩)
  · simp [h.flt]
  · simp [h.cfg_eq]
  · simpa using hprefix

/-- Lines 11 to 13. -/
theorem setblen_reaches (h : SboxReady cfg salt (payloadBuf payload) s) (hle : payload.length ≤ cfg.bufSize)
    (harg : s.arg.toNat = payload.length) :
    Reaches [.setblen, .crypt, .zero 0x08] s (PayloadDecrypted cfg salt payload) := by
  have hfits : s.arg.toNat ≤ s.cfg.bufSize := by rwa [harg, h.cfg_eq]
  have hset : exec .setblen s = .next (s.setBlen s.arg).countCommand :=
    execSetblen_next.mpr (.inr (.inr ⟨h.flt, hfits, rfl⟩))
  exact .cons hset (crypt_reaches { h with } hle harg)

/-- Lines 1 to 13 leave the decrypted payload in the buffer, whatever state the engine was in. -/
theorem decryptCommands_reaches (s : State) (salt : Vector Byte 8) (hle : payload.length ≤ s.cfg.bufSize)
    (hlt : payload.length < 2 ^ 32) :
    Reaches (decryptCommands salt payload) s (PayloadDecrypted s.cfg salt payload) := by
  have hkeys : Reaches ([.sreset, .mkrec] ++ salt8 salt ++ ldarg (BitVec.ofNat 32 pipeDkLen) ++
      [.kdf, .zero 0x01, .sbinit, .zero 0x06]) s (SboxReady s.cfg salt []) :=
    (kdfOperands_reach s salt).append fun _ h => (derivedKey_reaches h).append fun _ h => sbox_reaches h
  have hlength (u : State) (h : SboxReady s.cfg salt (payloadBuf payload) u) :
      Reaches (ldarg (BitVec.ofNat 32 payload.length)) u fun t =>
        SboxReady s.cfg salt (payloadBuf payload) t ∧ t.arg.toNat = payload.length := by
    obtain ⟨t, ht, rfl⟩ := ldarg_reaches h.flt (BitVec.ofNat 32 payload.length)
    exact ⟨_, ht, { h with }, ofNat_toNat_of_lt hlt⟩
  exact ((hkeys.append fun _ h => payload_reaches h hle).append hlength).append
    fun _ ⟨h, harg⟩ => setblen_reaches h hle harg

end stages

/-! ### The host's decrypt (47_container_host.md R184, R187, R188) -/

/-- The procedure runs its list, collects the buffer and reads no fault. -/
theorem hostDecrypt_of_fits {f : List Byte} {c : Container} (hc : parse f = .ok c)
    (hle : c.payload.length ≤ s.cfg.bufSize) : hostDecrypt s f = decrypt s.cfg f := by
  have hrun : Reaches (decryptCommands c.salt c.payload ++ ldarg 0) s fun t =>
      PayloadDecrypted s.cfg c.salt c.payload t ∧ t.arg = BitVec.ofNat 32 0 := by
    refine (decryptCommands_reaches s c.salt hle (payload_length_lt hc)).append fun t h => ?_
    obtain ⟨u, hu, rfl⟩ := ldarg_reaches h.flt 0
    exact ⟨_, hu, { h with }, rfl⟩
  obtain ⟨t, ht, h, harg⟩ := hrun
  obtain ⟨u, hu, hfu⟩ := collect_normal h.flt harg (n := c.payload.length) (by rw [h.cfg_eq]; omega)
  have hout : (List.range' 0 c.payload.length).map t.buf.read =
      cryptBuffer c.payload (pipelineSbox s.cfg c.salt.toList) s.cfg.secret := by
    rw [← h.buf, Memory.readPrefix, List.range_eq_range']
  simp only [hostDecrypt, decrypt, hc, if_neg (Nat.not_lt.mpr hle), ht, hu, faultRead_eq, hfu, hout]
  rfl

/-- Settles O58: a payload that fits runs the list; the two other cases present no command. -/
theorem theHostProcedureComputesDecrypt : Obligations.TheHostProcedureComputesDecrypt := by
  unfold Obligations.TheHostProcedureComputesDecrypt
  refine fun s f => ⟨fun c => hostDecrypt_of_fits, fun c hc hlt => ?_, fun e he => ?_⟩
  · simp only [hostDecrypt, hc, if_pos hlt]
  · simp only [hostDecrypt, he, error_of_parse he]

end Sys2Proof.Machine
end
